-- ==== Sys2Proof/Word.lean ====
section
/-!
DEFINITION. The byte type of the HK2408 model. Keys, values, payloads, frames and link answers are
byte strings (spec/01 R2, R3, spec/10); sizes, offsets, sequence numbers and counts are `Nat`
(log 38).
-/

namespace Sys2Proof

/-- One byte, as the link carries it. -/
abbrev Byte := BitVec 8

/-- A byte string, in the order the host gives it. -/
abbrev Bytes := List Byte

end Sys2Proof
end

