-- ==== Sys2Proof/Syntax.lean ====
section
/-!
DEFINITION. The commands of the part: one constructor per row of spec/opcode_table.json, in the
table's order. The table gives no operand bits; the operands are those the rules give the event.
-/

namespace Sys2Proof

/-- How long an RST assertion lasts, against the two figures of R177. -/
inductive PulseWidth
  /-- At least the minimum pulse width. -/
  | full
  /-- At least the ignore figure and less than the minimum pulse width. -/
  | between
  /-- Shorter than the ignore figure. -/
  | short
  deriving DecidableEq, Repr

/-- The commands (spec/opcode_table.json). A take of a request (`ident` to `unknownKind`) finds its
frame at the head of the inbound queue; a completion carries the outcome it reports. -/
inductive Instr
  /-- SEND, R169: a whole request frame was received. -/
  | send (kind tag : Byte) (payload : Bytes) (crc : BitVec 16)
  /-- FETCH, R170. -/
  | fetch
  /-- TAKE, R171, naming a reply sequence number. -/
  | take (number : Byte)
  /-- POLL, R172. -/
  | poll
  /-- CANCEL, R173, carrying a tag. -/
  | cancel (tag : Byte)
  /-- UNKNOWN_OPERATION, R168: the operation byte received. -/
  | unknownOperation (operation : Byte)
  /-- TRANSACTION_CUT, R167: the bytes received before SEL was released; or, with `open_`, the bytes
  received of a transaction that stands open, SEL still asserted, and that SEL_RELEASED or a reset cuts
  or a completion continues (R166, R176; log 14). -/
  | transactionCut (received : Bytes) (open_ : Bool := false)
  /-- POWER_ON, R108. -/
  | powerOn
  /-- RST_ASSERTED, R177. -/
  | rstAsserted (width : PulseWidth)
  /-- RST_RELEASED, R108. -/
  | rstReleased
  /-- IDENT, R163. -/
  | ident
  /-- SELECT, R154. -/
  | select
  /-- SPACE, R63. -/
  | space
  /-- PUT, R20. -/
  | put
  /-- DATA, R22. -/
  | data
  /-- GET, R33. -/
  | get
  /-- STAT, R37. -/
  | stat
  /-- DELETE, R31. -/
  | delete
  /-- LIST, R38. -/
  | list
  /-- BEGIN, R93. -/
  | begin
  /-- COMMIT, R99. -/
  | commit
  /-- DISCARD, R102. -/
  | discard
  /-- TIDY, R71. -/
  | tidy
  /-- FORMAT, R64. -/
  | format
  /-- SET_LIMIT, R10. -/
  | setLimit
  /-- LOCK, R134. -/
  | lock
  /-- LOCKDOWN, R135. -/
  | lockdown
  /-- PERSIST, R136. -/
  | persist
  /-- GATE_CLOSE, R138. -/
  | gateClose
  /-- UNLOCK, R143. -/
  | unlock
  /-- SET_PASSPHRASE, R140. -/
  | setPassphrase
  /-- SET_POLICY, R141. -/
  | setPolicy
  /-- FINALIZE, R144. -/
  | finalize
  /-- PROTECT_STATUS, R145. -/
  | protectStatus
  /-- RESET, R164. -/
  | reset
  /-- UNKNOWN_KIND, R151. -/
  | unknownKind
  /-- ASSEMBLY_TIMER_EXPIRY, R25. -/
  | assemblyTimerExpiry
  /-- RECORD_PROGRAM_DONE, R52: success or failure. -/
  | recordProgramDone (ok : Bool)
  /-- OPENED_MARK_DONE, R53: success or failure. -/
  | openedMarkDone (ok : Bool)
  /-- FILLED_MARK_DONE, R53: success or failure. -/
  | filledMarkDone (ok : Bool)
  /-- RECLAIM_MARK_DONE, R73: success or failure. -/
  | reclaimMarkDone (ok : Bool)
  /-- ERASE_MARK_DONE, R81: success or failure. -/
  | eraseMarkDone (ok : Bool)
  /-- ERASE_DONE, R83: success or failure. -/
  | eraseDone (ok : Bool)
  /-- ERASED_MARK_DONE, R83: success or failure. -/
  | erasedMarkDone (ok : Bool)
  /-- RETIRED_MARK_DONE, R84: success or failure. -/
  | retiredMarkDone (ok : Bool)
  /-- GET_FIRST_READ_DONE, R34: whether the bytes as read pass the record check. -/
  | getFirstReadDone (ok : Bool)
  /-- CHUNK_READ_DONE, R35. -/
  | chunkReadDone
  /-- COPY_READ_DONE, R75: whether the bytes as read pass the record check. -/
  | copyReadDone (ok : Bool)
  /-- MOUNT_READ_DONE, R112: the places of this read whose bytes fail their check: mark positions 0
  to 5 of a descriptor, or offsets of records. -/
  | mountReadDone (bad : List Nat)
  /-- MOUNT_FILLED_MARK_DONE, R120: success or failure. -/
  | mountFilledMarkDone (ok : Bool)
  /-- MOUNT_ERASE_DONE, R122: success or failure. -/
  | mountEraseDone (ok : Bool)
  /-- MOUNT_ERASED_MARK_DONE, R122: success or failure. -/
  | mountErasedMarkDone (ok : Bool)
  /-- MOUNT_RETIRED_MARK_DONE, R122: success or failure. -/
  | mountRetiredMarkDone (ok : Bool)
  /-- MOUNT_OPENED_MARK_DONE, R124: success or failure. -/
  | mountOpenedMarkDone (ok : Bool)
  /-- MOUNT_END, R126. -/
  | mountEnd
  /-- POWER_LOSS, R108. -/
  | powerLoss
  /-- SEND_BAD_LENGTH, R169: kind, tag and the length byte, which states more than 248. -/
  | sendBadLength (kind tag length : Byte)
  /-- SEL_RELEASED, R176. -/
  | selReleased
  deriving DecidableEq, Repr

end Sys2Proof
end

