-- ==== Sys2Proof/Config.lean ====
section
/-!
DEFINITION. The fixed figures of the part (spec/00_scope.md "Key figures", IDENT R163) and the free
values: constants with no body for what the spec leaves open (logs 8 to 11, 41). Each free value is
applied to a plain counter of State, so that every use is a fresh value, but for strayImageSn, which
is applied to the bytes that decide it.
-/

namespace Sys2Proof.Config

/-- Segments of the array (R43). -/
def segments : Nat := 64
/-- Bytes of one segment (R43). -/
def segmentBytes : Nat := 16384
/-- Bytes of a segment's record area (R43). -/
def recordArea : Nat := 16320
/-- Bytes of a descriptor; the record area starts there (R43). -/
def descriptorBytes : Nat := 64
/-- Bytes of a record header (R48). -/
def headerBytes : Nat := 20
/-- Largest key (R2). -/
def maxKey : Nat := 32
/-- Largest value (R3). -/
def maxValue : Nat := 4096
/-- Directory slots (R7). -/
def dirSlots : Nat := 1024
/-- Namespaces (R1). -/
def namespaces : Nat := 8
/-- Operations of one group (R97). -/
def groupOps : Nat := 32
/-- Frames of the inbound queue (R148). -/
def inboundSlots : Nat := 8
/-- Frames of the reply queue (R156). -/
def replySlots : Nat := 8
/-- Largest frame payload (R169). -/
def maxPayload : Nat := 248
/-- Largest data of one GET chunk (R35). -/
def maxChunk : Nat := 240
/-- Largest TIDY (R71). -/
def maxTidy : Nat := 64
/-- Failed-unlock limit (R142). -/
def unlockLimit : Nat := 8
/-- Pauses one erase takes (R82). -/
def pauseLimit : Nat := 16
/-- The value at which the SN counter and the stamp counter end, and an erase count stays:
2^32 - 1 (R44, R49, R50). -/
def counterEnd : Nat := 4294967295
/-- Segments not RETIRED below which the part is READ_ONLY (R61, R125). -/
def minSegments : Nat := 4
/-- The greatest count a RECORD_LOST notice reaches (R158). -/
def maxLosses : Nat := 65535
/-- The assembly timer, in milliseconds (R21). -/
def assemblyTimerMs : Nat := 250

/-- DESIGN CHOICE of form, value free (log 8): whether the bytes of a record whose program FAILED
hold the whole record all the same ("torn or not", R47; "happened to program a valid record", R48), a
COMMIT marker's included (R101; log 52). -/
opaque failedProgramWhole : Nat → Bool

/-- Free (log 9): the position of a mark whose program a reset aborted. `none`: as it stood;
`some true`: valid; `some false`: failed ("blank, failed or valid", R110). -/
opaque abortedMark : Nat → Option Bool

/-- Free (log 9): the same for the ERASE mark, which an abort never leaves as it stood, since R81
says that mount finds the segment UNKNOWN. -/
opaque abortedEraseMark : Nat → Bool

/-- Free (log 10): whether an erase that failed or was aborted left the marks as they were; otherwise
it left no valid mark (R127). -/
opaque eraseKeepsMarks : Nat → Bool

/-- Free (log 10): whether an erase that failed or was aborted left the record at this offset whole. -/
opaque eraseKeepsRecord : Nat → Nat → Bool

/-- Free (log 41): the greatest SN of a record image that mount's scan finds in a region with these
contents, from this offset on and with these places failing their reads, beside the records placed
there, at the other multiples of 4 (inside values and torn records), 0 where none passes (R114). The
same bytes give the same SN (R127). Such an image is a record of R48, so its SN is at most 2^32 - 2. -/
opaque strayImageSn {Contents : Type} (contents : Contents) (start : Nat) (bad : List Nat) :
    Fin 4294967295

/-- Free (log 11): whether an RST assertion between the ignore figure and the minimum pulse width
resets the part (R177). -/
opaque pulseResets : Nat → Bool

end Sys2Proof.Config
end

