-- ==== Sys2Proof/Machine/State.lean ====
section
/-!
DEFINITION. The state of the part, block by block (spec/00_scope.md "Blocks"), and the state after
reset. Plain data: what can be computed from other fields (ATN, SDO, the head, the directory counts,
dead bytes) is a function in Flags.lean or Ops.lean, not a field.
-/

namespace Sys2Proof.Machine

open Sys2Proof

/-! ## Codes and names -/

/-- R61. -/
inductive DeviceState
  | mounting | ready | readOnly
  deriving DecidableEq, Repr

/-- R149. -/
inductive EngineState
  | idle | assembling | busy | waitingSpace | streaming | replyWait
  deriving DecidableEq, Repr

/-- R67. -/
inductive ReclaimState
  | idle | copying | pinWait | erasing | erasePaused
  deriving DecidableEq, Repr

/-- R91. -/
inductive GroupState
  | noGroup | opened | failed
  deriving DecidableEq, Repr

/-- The six states of a segment (R45). -/
inductive SegState
  | erased | opened | filled | reclaiming | erasing | retired
  deriving DecidableEq, Repr

/-- The class mount gives a segment (R110). -/
inductive SegClass
  | erased | opened | filled | reclaiming | retired | unknown
  deriving DecidableEq, Repr

/-- R153. -/
inductive ReplyMode
  | full | quiet
  deriving DecidableEq, Repr

/-- R139. -/
inductive Policy
  | unset | plain | passphrase
  deriving DecidableEq, Repr

/-- The causes of READ_ONLY (R61, R125), with NONE for MOUNTED. -/
inductive RoCause
  | noCause | retirement | snExhaustion | stampExhaustion | copyUnplaceable | copyFailed | noHead
  deriving DecidableEq, Repr

/-- R85. -/
inductive RetireCause
  | suspect | eraseFailure | markFailure
  deriving DecidableEq, Repr

/-- R108, R126. -/
inductive ResetKind
  | powerOn | rstLine | resetRequest
  deriving DecidableEq, Repr

/-- The status codes of replies (spec/08 "Status codes", spec/10 "Kinds and statuses"). -/
inductive Status
  | ok | notFound | exists_ | versionMismatch | locked | denied | lockedOut | noSpace | dirFull
  | limitReached | badRequest | badSequence | incomplete | cancelled | groupOpen | noGroup
  | groupFull | groupFailed | readOnly | mediaFault | corrupt
  deriving DecidableEq, Repr

/-- The record kinds (R48). -/
inductive RecordKind
  | value | tombstone | commit | system | format
  deriving DecidableEq, Repr

/-- The six marks of a descriptor, in their order (R44). -/
inductive MarkPos
  | erased | opened | filled | reclaim | erase | retired
  deriving DecidableEq, Repr

/-- A mark position as it stands in the array: blank, valid with the number the mark carries (0 for
a mark that carries none), or failed (R44, R110). -/
inductive Mark
  | blank | valid (carried : Nat) | failed
  deriving DecidableEq, Repr

/-! ## Records, locations, the array -/

/-- A location names a record: segment index and offset of its first byte (R43). -/
structure Loc where
  seg : Nat
  off : Nat
  deriving DecidableEq, Repr

/-- A record's contents (R48). `ns` is 0 for kinds other than VALUE and TOMBSTONE; `tagged` is the
group tag; `sn` is 0 until the record takes its SN. -/
structure Record where
  kind : RecordKind
  ns : Nat
  tagged : Bool
  key : Bytes
  value : Bytes
  sn : Nat
  deriving DecidableEq, Repr

/-- The descriptor of a segment in the array (R44). -/
structure Marks where
  erased : Mark
  opened : Mark
  filled : Mark
  reclaim : Mark
  erase : Mark
  retired : Mark
  deriving DecidableEq, Repr

/-- Written bytes of a record area: one record's place, and the record when its bytes are whole;
`none` is a torn record, whose check never passes (R52, R58, R59, R112). `residue` is the model's: it
tells the bytes of one torn record from those of another, and is 0 for a whole one (log 41). -/
structure Slot where
  off : Nat
  size : Nat
  record : Option Record
  residue : Nat := 0
  deriving DecidableEq, Repr

/-- One segment as the array holds it. Offsets beyond the last slot are in the erased state. -/
structure ArraySeg where
  marks : Marks
  slots : List Slot
  deriving DecidableEq, Repr

/-! ## Frames, replies, notices -/

/-- A request frame as the inbound queue holds it (R148). -/
structure Frame where
  kind : Byte
  tag : Byte
  payload : Bytes
  deriving DecidableEq, Repr

/-- A reply or notice that has not entered the reply queue yet. -/
structure Out where
  kind : Byte
  tag : Byte
  status : Status
  payload : Bytes
  deriving DecidableEq, Repr

/-- A frame of the reply queue, with the reply sequence number it took on entering (R156). -/
structure Reply where
  seq : Byte
  out : Out
  deriving DecidableEq, Repr

/-- A pending notice with the values of its latest raise (R158, R159). -/
inductive Notice
  /-- R126. -/
  | mounted (device : DeviceState) (cause : RoCause) (kind : ResetKind) (live buried erased retired
      discarded erasedBy retiredBy leftOut : Nat)
  /-- R56. -/
  | spaceLow (erased reclaimable size : Nat)
  /-- R85. -/
  | segmentRetired (seg : Nat) (cause : RetireCause) (eraseCount inUse count : Nat)
  /-- R17, R106, R131. -/
  | recordLost (ns : Nat) (setting : Bool) (count version : Nat) (key : Bytes)
  /-- R62. -/
  | readOnly (cause : RoCause) (inUse sn : Nat)
  deriving DecidableEq, Repr

/-! ## Link port -/

/-- Where the port stands with respect to the SEL assertion in progress (R167 to R169, R176). -/
inductive PortPhase
  /-- SEL is released; the next assertion starts a transaction. -/
  | idle
  /-- A transaction stands open that has not completed: 0xFF is driven while the host's bytes are
  received (R166, R167). -/
  | receiving
  /-- A transaction has completed; the answer, then 0xFF, is driven. -/
  | answering
  /-- Unknown operation byte: 0xFF is driven (R168). -/
  | ignoring
  /-- Length byte above 248: BAD_LENGTH is driven (R169). -/
  | tooLong
  /-- A reset left SEL asserted: 0xFF is driven and no transaction starts (R176). -/
  | abandoned
  deriving DecidableEq, Repr

/-- The transaction in progress (R176). -/
structure Port where
  phase : PortPhase
  operation : Option Byte
  received : Nat
  collected : Bytes
  answer : Bytes
  deriving DecidableEq, Repr

/-! ## Request engine -/

/-- The current request with what it took from the context at its take (R151, R153). -/
structure Request where
  kind : Byte
  tag : Byte
  ns : Nat
  mode : ReplyMode
  deriving DecidableEq, Repr

/-- The conditions of a PUT (R20, R27). -/
inductive Condition
  | always | ifAbsent | ifVersion (version : Nat)
  deriving DecidableEq, Repr

/-- A PUT's form but for its inline bytes (R20). -/
structure PutForm where
  key : Bytes
  condition : Condition
  total : Nat
  deriving DecidableEq, Repr

/-- An assembly (R21). The expected offset is the number of bytes in `buffer`; the timer runs while
the assembly exists and was last started with `timerMs`. -/
structure Assembly where
  form : PutForm
  buffer : Bytes
  timerMs : Nat
  deriving DecidableEq, Repr

/-- What the engine's record is for (R29, R32, R65, R100, R129). -/
inductive Purpose
  /-- A PUT; `reserved` says that this PUT took the reservation of its key (R96). -/
  | put (reserved : Bool)
  | delete
  | commit
  /-- A settings write of the current request (R129). -/
  | setting
  | formatMarker
  /-- A settings rewrite after a FORMAT marker: the marker's SN, the rewrites done, and the setting
  ids still to come after this one (R65). -/
  | formatRewrite (marker done : Nat) (rest : List Byte)
  deriving DecidableEq, Repr

/-- The record the engine is placing. -/
structure Job where
  purpose : Purpose
  record : Record
  deriving DecidableEq, Repr

/-- A GET stream (R33 to R36): what the lookup found, the value bytes sent in chunks, and the data
of the chunk that waits for a slot. -/
structure Stream where
  key : Bytes
  version : Nat
  length : Nat
  loc : Loc
  sent : Nat
  chunk : Option Bytes
  deriving DecidableEq, Repr

/-- The request engine (R149, R152, R153). -/
structure Engine where
  state : EngineState
  request : Option Request
  assembly : Option Assembly
  job : Option Job
  stream : Option Stream
  decided : List Out
  breaking : Option Frame
  ns : Nat
  mode : ReplyMode
  watermark : Nat
  deriving DecidableEq, Repr

/-! ## Directory, group unit, protection unit -/

/-- R5: LIVE with the value length, or BURIED. -/
inductive EntryState
  | live (length : Nat) | buried
  deriving DecidableEq, Repr

/-- A directory entry (R5). -/
structure Entry where
  ns : Nat
  key : Bytes
  state : EntryState
  version : Nat
  loc : Loc
  deriving DecidableEq, Repr

/-- The standing of a pending-list entry (R91). -/
inductive Standing
  | current | superseded | lost
  deriving DecidableEq, Repr

/-- A staged operation (R91). `length` is the value length of a PUT, 0 for a DELETE. -/
structure Pending where
  isPut : Bool
  ns : Nat
  key : Bytes
  sn : Nat
  loc : Loc
  length : Nat
  standing : Standing
  deriving DecidableEq, Repr

/-- The group unit (R91). -/
structure Group where
  state : GroupState
  firstSn : Option Nat
  list : List Pending
  reserved : List (Nat × Bytes)
  deriving DecidableEq, Repr

/-- A present setting: id, value, SN and location of its record (R128). -/
structure Setting where
  id : Byte
  value : Bytes
  sn : Nat
  loc : Loc
  deriving DecidableEq, Repr

/-- The protection unit (R128, R132, R137, R142). An absent setting has no entry in `settings`,
which is kept in ascending order of id. -/
structure Protection where
  settings : List Setting
  sessionLocks : Byte
  lockdowns : Byte
  gateOpen : Bool
  unlockFails : Nat
  deriving DecidableEq, Repr

/-! ## Log manager -/

/-- An entry of the segment table (R46); its index is its place in the table. `dead` is
`used - live`. `reclaimMarked` is the model's: the segment carries a RECLAIM mark already (R120,
log 37). -/
structure SegEntry where
  state : SegState
  stamp : Option Nat
  eraseCount : Nat
  used : Nat
  live : Nat
  suspect : Bool
  pin : Bool
  reclaimMarked : Bool
  deriving DecidableEq, Repr

/-- The two claimants of the append point (R51). -/
inductive Claimant
  | engine | reclaim
  deriving DecidableEq, Repr

/-- How far a granted record has come (R51 to R53). -/
inductive GrantStage
  /-- The tests of R51 are being made. -/
  | choosing
  /-- The OPENED mark of this segment is being programmed. -/
  | opening (seg : Nat)
  /-- The record is placed and its program asked for. -/
  | programming (loc : Loc)
  deriving DecidableEq, Repr

/-- The grant of the append point (R55). `retry` says that the record was placed once and failed to
program (R59); `abandoned` that its record was withdrawn while the OPENED mark is programmed (R53). -/
structure Grant where
  claimant : Claimant
  record : Record
  retry : Bool
  stage : GrantStage
  abandoned : Bool
  deriving DecidableEq, Repr

/-- The log manager. -/
structure Log where
  device : DeviceState
  segs : List SegEntry
  sn : Nat
  stamp : Nat
  grant : Option Grant
  engineWaits : Bool
  copyWaits : Bool
  deriving DecidableEq, Repr

/-! ## Array controller and reclaim unit -/

/-- The parties that ask the array controller for operations (R58). -/
inductive Requester
  | logManager | engine | reclaim | mount
  deriving DecidableEq, Repr

/-- The array operations (R58). `wanted` is false once a CANCEL has made a read's result unwanted
(R42); a RETIRED mark names the block that retires the segment (R53, R84). -/
inductive ArrayOp
  | getFirstRead (loc : Loc) (wanted : Bool)
  | chunkRead (loc : Loc) (wanted : Bool)
  | copyRead (loc : Loc)
  | programRecord (loc : Loc) (record : Record)
  | openedMark (seg stamp : Nat)
  | filledMark (seg : Nat)
  | reclaimMark (seg : Nat)
  | eraseMark (seg : Nat)
  | erase (seg : Nat)
  | erasedMark (seg count : Nat)
  | retiredMark (seg : Nat) (asker : Requester := .reclaim)
  | mountRead
  | mountFilledMark (seg : Nat)
  | mountErase (seg : Nat)
  | mountErasedMark (seg count : Nat)
  | mountRetiredMark (seg : Nat)
  | mountOpenedMark (seg stamp : Nat)
  deriving DecidableEq, Repr

/-- The array controller (R58, R82): the operation in progress, those that wait, and the paused erase.
`held` is the model's: requests that their requester holds back while it has one outstanding (log 42). -/
structure Controller where
  cur : Option ArrayOp
  queue : List ArrayOp
  held : List ArrayOp := []
  paused : Option Nat
  pauseCount : Nat
  deriving DecidableEq, Repr

/-- The owners of names (R74). -/
inductive Owner
  | directory | group | settings
  deriving DecidableEq, Repr

/-- The copy in hand with the copy buffer (R67). For the settings table `key` is the setting id.
`placed` is the copy's location once placed; `dropped` says that a DISCARD declined it while its
read was outstanding (R105). -/
structure Copy where
  owner : Owner
  ns : Nat
  key : Bytes
  sn : Nat
  loc : Loc
  size : Nat
  buffer : Option Record
  tagged : Bool
  placed : Option Loc
  dropped : Bool
  deriving DecidableEq, Repr

/-- The reclaim unit (R67). -/
structure Reclaim where
  state : ReclaimState
  victim : Option Nat
  position : Nat
  copy : Option Copy
  bytesPlaced : Nat
  foreground : Bool
  background : Bool
  tidyRemaining : Nat
  tidyDone : Nat
  tidyFreed : Nat
  tidyCancelled : Bool
  deriving DecidableEq, Repr

/-! ## Mount -/

/-- A descriptor as mount read it (R110, R111). -/
structure SegRead where
  cls : SegClass
  eraseCount : Option Nat
  stamp : Option Nat
  deriving DecidableEq, Repr

/-- A record found by a walk (R112). -/
structure Found where
  loc : Loc
  record : Record
  deriving DecidableEq, Repr

/-- How a walk ended (R112). -/
inductive WalkStop
  | erasedSpace | areaEnd | torn
  deriving DecidableEq, Repr

/-- The end of one segment's walk (R112). -/
structure WalkEnd where
  seg : Nat
  off : Nat
  stop : WalkStop
  deriving DecidableEq, Repr

/-- Where mount stands (spec/06 "The phases of mount"). -/
inductive MountPhase
  /-- Reading the descriptor of this segment (R110). -/
  | descriptor (seg : Nat)
  /-- Walking the first of these segments, at this offset (R112). -/
  | walk (todo : List Nat) (off : Nat)
  /-- Scanning the first of these regions, each from its offset to the segment's end (R114). -/
  | scan (todo : List Loc)
  /-- Writing the FILLED mark of the first of these segments (R120). -/
  | close (todo : List Nat)
  /-- Erasing the first of these segments, or writing its ERASED or RETIRED mark (R122). -/
  | reErase (todo : List Nat)
  /-- Opening this segment as the head, or retiring it (R124). -/
  | openHead (seg : Nat)
  /-- Everything done but the end of R126. -/
  | finished
  deriving DecidableEq, Repr

/-- Mount's transient working state. -/
structure Mount where
  phase : MountPhase
  reads : List SegRead
  found : List Found
  ends : List WalkEnd
  discarded : Nat
  scanSn : Nat
  segs : List SegEntry
  dir : List Entry
  settings : List Setting
  leftOut : Nat
  sn : Nat
  stamp : Nat
  erasedBy : Nat
  retiredBy : Nat
  deriving DecidableEq, Repr

/-! ## The whole part -/

/-- The state of the part. `free` numbers the free values used and the torn records (logs 8 to 11, 41); `pending` is the
queue of commands waiting (log 1): both are the model's own. -/
structure State where
  powered : Bool
  rst : Bool
  sel : Bool
  resetKind : ResetKind
  port : Port
  inbound : List Frame
  engine : Engine
  replies : List Reply
  replySeq : Byte
  notices : List Notice
  dir : List Entry
  group : Group
  prot : Protection
  log : Log
  ctrl : Controller
  reclaim : Reclaim
  mount : Option Mount
  array : List ArraySeg
  free : Nat
  pending : List Instr
  deriving DecidableEq, Repr

/-- The reasons a step can stop with a fault. There is none: whatever goes wrong in the part is an
effect the rules give (a verdict, a status, a notice, a device state). -/
inductive Fault
  deriving DecidableEq, Repr

/-- The reasons a step can be refused. -/
inductive Refusal
  /-- An arm of `exec` without a meaning would raise it, by the row's mnemonic; it is safe. No arm
  does. -/
  | notModelled (mnemonic : String)
  deriving DecidableEq, Repr

/-! ## Reset values, block by block -/

/-- R176. -/
def Port.reset : Port :=
  { phase := .idle, operation := none, received := 0, collected := [], answer := [] }

/-- R165. -/
def Engine.reset : Engine :=
  { state := .idle, request := none, assembly := none, job := none, stream := none, decided := []
    breaking := none, ns := 0, mode := .full, watermark := 0 }

/-- R91, R107. -/
def Group.reset : Group := { state := .noGroup, firstSn := none, list := [], reserved := [] }

/-- R132, R142, R147, with the failed-unlock counter left to the reset kind. DESIGN CHOICE (log 5):
the gate, which holds no value while MOUNTING, is CLOSED. -/
def Protection.reset (fails : Nat) : Protection :=
  { settings := [], sessionLocks := 0, lockdowns := 0, gateOpen := false, unlockFails := fails }

/-- R66. DESIGN CHOICE (log 4): the counters, undefined until mount sets them, are 0. -/
def Log.reset : Log :=
  { device := .mounting, segs := [], sn := 0, stamp := 0, grant := none, engineWaits := false
    copyWaits := false }

/-- R58: idle, no erase paused, pause count 0. -/
def Controller.reset : Controller :=
  { cur := none, queue := [], held := [], paused := none, pauseCount := 0 }

/-- R67. -/
def Reclaim.reset : Reclaim :=
  { state := .idle, victim := none, position := 64, copy := none, bytesPlaced := 0
    foreground := false, background := false, tidyRemaining := 0, tidyDone := 0, tidyFreed := 0
    tidyCancelled := false }

/-- Mount at its start: nothing read yet (R110, R127). -/
def Mount.start : Mount :=
  { phase := .descriptor 0, reads := [], found := [], ends := [], discarded := 0, scanSn := 0
    segs := [], dir := [], settings := [], leftOut := 0, sn := 0, stamp := 0, erasedBy := 0
    retiredBy := 0 }

/-- A descriptor with every position in the erased state (R110). -/
def Marks.blank : Marks :=
  { erased := .blank, opened := .blank, filled := .blank, reclaim := .blank, erase := .blank
    retired := .blank }

/-- A segment of a blank array. -/
def ArraySeg.blank : ArraySeg := { marks := Marks.blank, slots := [] }

/-- The part right after power-on reset (R108): MOUNTING, mount asking for its first read.
DESIGN CHOICE (log 3): the array is blank and RST and SEL are released. -/
def State.reset : State :=
  { powered := true, rst := false, sel := false, resetKind := .powerOn, port := Port.reset
    inbound := [], engine := Engine.reset, replies := [], replySeq := 0, notices := [], dir := []
    group := Group.reset, prot := Protection.reset 0, log := Log.reset
    ctrl := { Controller.reset with cur := some .mountRead }, reclaim := Reclaim.reset
    mount := some Mount.start, array := List.replicate Config.segments ArraySeg.blank, free := 0
    pending := [] }

end Sys2Proof.Machine
end

