-- ==== Sys2Proof/Machine/Operands.lean ====
section
/-!
DEFINITION. The byte formats of spec/10 (R178 to R181): little-endian numbers, the CRC-16, code
values, frames on the link, the form of every request payload, and the pieces of reply and notice
payloads. Also the order of keys (R2) and the sizes of records (R48).
-/

namespace Sys2Proof.Machine

open Sys2Proof

/-! ## Numbers in payloads -/

/-- A number as one byte. -/
def byteOf (n : Nat) : Byte := BitVec.ofNat 8 n

/-- `count` bytes of a number, least significant first (R179). -/
def le (count n : Nat) : Bytes :=
  match count with
  | 0 => []
  | c + 1 => byteOf n :: le c (n / 256)

/-- The number that little-endian bytes stand for (R179). -/
def leNat (bytes : Bytes) : Nat :=
  match bytes with
  | [] => 0
  | b :: bs => b.toNat + 256 * leNat bs

/-- A yes-or-no field (spec/10, Field codes). -/
def flag (b : Bool) : Byte := if b then 1 else 0

/-! ## The CRC-16 (R179) -/

/-- One bit into the CRC register: shift left, and XOR with 0x1021 when the bit shifted out differs
from the data bit. -/
def crcBit (register : BitVec 16) (bit : Bool) : BitVec 16 :=
  let shifted := register <<< 1
  if register.getMsbD 0 != bit then shifted ^^^ 0x1021 else shifted

/-- One byte into the CRC register, most significant bit first. -/
def crcByte (register : BitVec 16) (b : Byte) : BitVec 16 :=
  (List.range 8).foldl (fun r i => crcBit r (b.getMsbD i)) register

/-- The CRC-16 over a byte string: start 0xFFFF, no reflection, no final XOR. -/
def crc16 (bytes : Bytes) : BitVec 16 := bytes.foldl crcByte 0xFFFF

/-- The CRC-16 as it is sent, high byte first. -/
def crcBytes (bytes : Bytes) : Bytes :=
  let c := crc16 bytes
  [c.extractLsb' 8 8, c.extractLsb' 0 8]

/-! ## Code values (spec/10) -/

/-- What the part drives where it has nothing to answer (R167). -/
def nothingByte : Byte := 0xFF

/-- The verdicts of the link (spec/10, Link code values). -/
def verdictAccepted : Byte := 0x00
def verdictFull : Byte := 0x01
def verdictBadCheck : Byte := 0x02
def verdictBadLength : Byte := 0x03
def verdictStale : Byte := 0x04
def verdictEmpty : Byte := 0x05

/-- The operation bytes of the link (spec/10, Link code values). -/
def opSend : Byte := 0xA1
def opFetch : Byte := 0xA2
def opTake : Byte := 0xA3
def opPoll : Byte := 0xA4
def opCancel : Byte := 0xA5

/-- The request kinds (spec/10, Kinds and statuses). -/
def kIdent : Byte := 0x01
def kSelect : Byte := 0x02
def kSpace : Byte := 0x03
def kPut : Byte := 0x08
def kData : Byte := 0x09
def kGet : Byte := 0x0A
def kStat : Byte := 0x0B
def kDelete : Byte := 0x0C
def kList : Byte := 0x0D
def kBegin : Byte := 0x10
def kCommit : Byte := 0x11
def kDiscard : Byte := 0x12
def kTidy : Byte := 0x18
def kFormat : Byte := 0x19
def kSetLimit : Byte := 0x1A
def kLock : Byte := 0x20
def kLockdown : Byte := 0x21
def kPersist : Byte := 0x22
def kGateClose : Byte := 0x23
def kUnlock : Byte := 0x24
def kSetPassphrase : Byte := 0x25
def kSetPolicy : Byte := 0x26
def kFinalize : Byte := 0x27
def kProtectStatus : Byte := 0x28
def kReset : Byte := 0x3F

/-- Every request kind of the table of kinds. -/
def requestKinds : List Byte :=
  [kIdent, kSelect, kSpace, kPut, kData, kGet, kStat, kDelete, kList, kBegin, kCommit, kDiscard,
   kTidy, kFormat, kSetLimit, kLock, kLockdown, kPersist, kGateClose, kUnlock, kSetPassphrase,
   kSetPolicy, kFinalize, kProtectStatus, kReset]

/-- The kind of a reply: the request's kind plus 0x80 (R152). -/
def replyKind (kind : Byte) : Byte := kind + 0x80

/-- The reply kind for a frame of an unknown kind (R151). -/
def unknownReplyKind : Byte := 0xBF

/-- Status codes (spec/10, Kinds and statuses). -/
def Status.code (status : Status) : Byte :=
  match status with
  | .ok => 0x00
  | .notFound => 0x01
  | .exists_ => 0x02
  | .versionMismatch => 0x03
  | .locked => 0x04
  | .denied => 0x05
  | .lockedOut => 0x06
  | .noSpace => 0x07
  | .dirFull => 0x08
  | .limitReached => 0x09
  | .badRequest => 0x0A
  | .badSequence => 0x0B
  | .incomplete => 0x0C
  | .cancelled => 0x0D
  | .groupOpen => 0x0E
  | .noGroup => 0x0F
  | .groupFull => 0x10
  | .groupFailed => 0x11
  | .readOnly => 0x12
  | .mediaFault => 0x13
  | .corrupt => 0x14

/-- Field codes (spec/10, Field codes). -/
def DeviceState.code : DeviceState → Byte
  | .mounting => 0x00
  | .ready => 0x01
  | .readOnly => 0x02

/-- Field codes (spec/10, Field codes). -/
def EngineState.code : EngineState → Byte
  | .idle => 0x00
  | .assembling => 0x01
  | .busy => 0x02
  | .waitingSpace => 0x03
  | .streaming => 0x04
  | .replyWait => 0x05

/-- Field codes (spec/10, Field codes). -/
def ReclaimState.code : ReclaimState → Byte
  | .idle => 0x00
  | .copying => 0x01
  | .pinWait => 0x02
  | .erasing => 0x03
  | .erasePaused => 0x04

/-- Field codes (spec/10, Field codes). -/
def GroupState.code : GroupState → Byte
  | .noGroup => 0x00
  | .opened => 0x01
  | .failed => 0x02

/-- Field codes (spec/10, Field codes). -/
def ReplyMode.code : ReplyMode → Byte
  | .full => 0x00
  | .quiet => 0x01

/-- Field codes (spec/10, Field codes). -/
def Policy.code : Policy → Byte
  | .unset => 0x00
  | .plain => 0x01
  | .passphrase => 0x02

/-- Field codes (spec/10, Field codes). -/
def RoCause.code : RoCause → Byte
  | .noCause => 0x00
  | .retirement => 0x01
  | .snExhaustion => 0x02
  | .stampExhaustion => 0x03
  | .copyUnplaceable => 0x04
  | .copyFailed => 0x05
  | .noHead => 0x06

/-- Field codes (spec/10, Field codes). -/
def RetireCause.code : RetireCause → Byte
  | .suspect => 0x01
  | .eraseFailure => 0x02
  | .markFailure => 0x03

/-- Field codes (spec/10, Field codes). -/
def ResetKind.code : ResetKind → Byte
  | .powerOn => 0x01
  | .rstLine => 0x02
  | .resetRequest => 0x03

/-! ## Setting ids (R128) -/

def idLocks : Byte := 0x01
def idPolicy : Byte := 0x20
def idPassphrase : Byte := 0x21
def idFinal : Byte := 0x22
/-- LIMITn, 0x10 to 0x17. -/
def idLimit (n : Nat) : Byte := byteOf (0x10 + n)

/-- The twelve setting ids, in ascending order. -/
def settingIds : List Byte :=
  [idLocks, idLimit 0, idLimit 1, idLimit 2, idLimit 3, idLimit 4, idLimit 5, idLimit 6, idLimit 7,
   idPolicy, idPassphrase, idFinal]

/-- A value is of the length and within the range of the setting with this id (R119, R128). -/
def settingValueOk (id : Byte) (value : Bytes) : Bool :=
  if id = idLocks then decide (value.length = 1)
  else if id = idPolicy then decide (value = [Policy.plain.code] ∨ value = [Policy.passphrase.code])
  else if id = idPassphrase then decide (value.length = 16)
  else if id = idFinal then
    match value with
    | [b] => decide (b.toNat ≤ 3)
    | _ => false
  else if settingIds.contains id then decide (value.length = 2 ∧ leNat value ≤ Config.dirSlots)
  else false

/-! ## Keys (R2) and record sizes (R48) -/

/-- Key order: the first pair of bytes that differs decides, and a proper prefix orders first. -/
def keyLt : Bytes → Bytes → Bool
  | _, [] => false
  | [], _ :: _ => true
  | a :: as, b :: bs => if a = b then keyLt as bs else decide (a.toNat < b.toNat)

/-- Directory order: namespace first, then key. -/
def nameLt (ns : Nat) (key : Bytes) (ns' : Nat) (key' : Bytes) : Bool :=
  decide (ns < ns') || (decide (ns = ns') && keyLt key key')

/-- A key length is 1 to 32 (R2). -/
def keyLengthOk (k : Nat) : Bool := decide (1 ≤ k ∧ k ≤ Config.maxKey)

/-- Rounded up to a multiple of 4 (R43, R48). -/
def roundUp4 (n : Nat) : Nat := (n + 3) / 4 * 4

/-- The size of a record with this key length and value length (R48). -/
def recordSize (keyLength valueLength : Nat) : Nat :=
  roundUp4 (Config.headerBytes + keyLength + valueLength)

/-- The size of a record (R48). -/
def Record.size (r : Record) : Nat := recordSize r.key.length r.value.length

/-! ## Frames on the link (R169, R170, R179) -/

/-- The bytes of a SEND frame that its CRC covers. -/
def sentBody (kind tag : Byte) (payload : Bytes) : Bytes :=
  kind :: tag :: byteOf payload.length :: payload

/-- The bytes of a reply frame before its CRC. -/
def Reply.body (r : Reply) : Bytes :=
  r.out.kind :: r.out.tag :: r.seq :: r.out.status.code :: byteOf r.out.payload.length ::
    r.out.payload

/-- A reply frame as FETCH drives it. -/
def Reply.bytes (r : Reply) : Bytes := r.body ++ crcBytes r.body

/-! ## The form of request payloads (R20, R180) -/

/-- The condition field of a PUT, with its expected version read only under IF_VERSION (R20). -/
def conditionOf (code : Byte) (expected : Nat) : Option Condition :=
  if code = 0x00 then some .always
  else if code = 0x01 then some .ifAbsent
  else if code = 0x02 then (if expected = 0 then none else some (.ifVersion expected))
  else none

/-- A PUT payload: its form and its inline bytes; `none` is BAD_REQUEST (R20). -/
def parsePut (payload : Bytes) : Option (PutForm × Bytes) :=
  match payload with
  | k :: c :: t0 :: t1 :: e0 :: e1 :: e2 :: e3 :: rest =>
    let total := leNat [t0, t1]
    let inlineBytes := rest.drop k.toNat
    match conditionOf c (leNat [e0, e1, e2, e3]) with
    | none => none
    | some condition =>
      if keyLengthOk k.toNat ∧ k.toNat ≤ rest.length ∧ total ≤ Config.maxValue ∧
          inlineBytes.length ≤ total
      then some ({ key := rest.take k.toNat, condition := condition, total := total }, inlineBytes)
      else none
  | _ => none

/-- A DATA payload: offset and data bytes; `none` when it cannot hold the offset (R23, R26). -/
def parseData (payload : Bytes) : Option (Nat × Bytes) :=
  match payload with
  | o0 :: o1 :: rest => some (leNat [o0, o1], rest)
  | _ => none

/-- A GET or STAT payload: the key (R33, R37). -/
def parseKey (payload : Bytes) : Option Bytes :=
  match payload with
  | k :: rest => if keyLengthOk k.toNat ∧ rest.length = k.toNat then some rest else none
  | [] => none

/-- A DELETE payload: expected version and key (R31). -/
def parseDelete (payload : Bytes) : Option (Nat × Bytes) :=
  match payload with
  | k :: e0 :: e1 :: e2 :: e3 :: rest =>
    if keyLengthOk k.toNat ∧ rest.length = k.toNat then some (leNat [e0, e1, e2, e3], rest)
    else none
  | _ => none

/-- A LIST payload: count and cursor, empty for no cursor (R38). -/
def parseList (payload : Bytes) : Option (Nat × Bytes) :=
  match payload with
  | n :: c :: rest =>
    if 1 ≤ n.toNat ∧ n.toNat ≤ 16 ∧ c.toNat ≤ Config.maxKey ∧ rest.length = c.toNat
    then some (n.toNat, rest) else none
  | _ => none

/-- A SELECT payload: namespace, reply mode, watermark, validated together (R154). -/
def parseSelect (payload : Bytes) : Option (Nat × ReplyMode × Nat) :=
  match payload with
  | [n, m, w] =>
    if n.toNat < Config.namespaces ∧ w.toNat ≤ 7 then
      if m = 0x00 then some (n.toNat, .full, w.toNat)
      else if m = 0x01 then some (n.toNat, .quiet, w.toNat)
      else none
    else none
  | _ => none

/-- A TIDY payload: the number of passes (R71). -/
def parseTidy (payload : Bytes) : Option Nat :=
  match payload with
  | [n] => if 1 ≤ n.toNat ∧ n.toNat ≤ Config.maxTidy then some n.toNat else none
  | _ => none

/-- A SET_LIMIT payload: namespace and limit (R10). -/
def parseSetLimit (payload : Bytes) : Option (Nat × Nat) :=
  match payload with
  | [n, l0, l1] =>
    if n.toNat < Config.namespaces ∧ leNat [l0, l1] ≤ Config.dirSlots
    then some (n.toNat, leNat [l0, l1]) else none
  | _ => none

/-- A LOCK or PERSIST payload: mask and whether the action is SET (R134, R136). -/
def parseMaskAction (payload : Bytes) : Option (Byte × Bool) :=
  match payload with
  | [mask, action] =>
    if action = 0x01 then some (mask, true)
    else if action = 0x00 then some (mask, false)
    else none
  | _ => none

/-- A LOCKDOWN payload: mask (R135). -/
def parseMask (payload : Bytes) : Option Byte :=
  match payload with
  | [mask] => some mask
  | _ => none

/-- A SET_POLICY payload: PLAIN or PASSPHRASE (R141). -/
def parsePolicy (payload : Bytes) : Option Policy :=
  match payload with
  | [p] => if p = 0x01 then some .plain else if p = 0x02 then some .passphrase else none
  | _ => none

/-- A FINALIZE payload: LOCKS_FINAL, FORMAT_BAR or both (R144). -/
def parseFinal (payload : Bytes) : Option Byte :=
  match payload with
  | [b] => if 1 ≤ b.toNat ∧ b.toNat ≤ 3 then some b else none
  | _ => none

/-- An UNLOCK or SET_PASSPHRASE payload: 16 bytes (R140, R143). -/
def parsePassphrase (payload : Bytes) : Option Bytes :=
  if payload.length = 16 then some payload else none

/-! ## Pieces of reply payloads (R181) -/

/-- A GET chunk's offset-and-flags field: offset in bits 0 to 12, FIRST in bit 14, LAST in bit 15. -/
def offsetFlags (off : Nat) (first last : Bool) : Bytes :=
  le 2 (off % 8192 + (if first then 16384 else 0) + (if last then 32768 else 0))

/-- The payload of a GET chunk, or of a stream's final CANCELLED reply with no data (R35, R42). -/
def chunkPayload (version length off : Nat) (first last : Bool) (data : Bytes) : Bytes :=
  le 4 version ++ le 2 length ++ offsetFlags off first last ++ data

/-- The IDENT reply, 25 bytes (R163; spec/10, IDENT reply). -/
def identPayload : Bytes :=
  le 2 0x2408 ++ [0x01] ++ le 4 (Config.segments * Config.segmentBytes) ++
    [byteOf Config.segments] ++ le 2 Config.segmentBytes ++ le 2 Config.recordArea ++
    [byteOf Config.namespaces, byteOf Config.maxKey] ++ le 2 Config.maxValue ++
    le 2 Config.dirSlots ++
    [byteOf Config.groupOps, byteOf Config.inboundSlots, byteOf Config.replySlots,
     byteOf Config.maxPayload, byteOf Config.maxChunk, byteOf Config.maxTidy,
     byteOf Config.unlockLimit]

/-! ## Notices as frames (R159) -/

/-- The kind of a notice (R159). -/
def Notice.kind : Notice → Byte
  | .mounted .. => 0xF0
  | .spaceLow .. => 0xF1
  | .segmentRetired .. => 0xF2
  | .recordLost .. => 0xF3
  | .readOnly .. => 0xF4

/-- The bit of a notice in the pending-notice mask (spec/10, Field codes). -/
def Notice.bit : Notice → Byte
  | .mounted .. => 0x01
  | .spaceLow .. => 0x02
  | .segmentRetired .. => 0x04
  | .recordLost .. => 0x08
  | .readOnly .. => 0x10

/-- The payload of a notice (spec/10, Notice payloads). -/
def Notice.payload : Notice → Bytes
  | .mounted device cause kind live buried erased retired discarded erasedBy retiredBy leftOut =>
    [device.code, cause.code, kind.code] ++ le 2 live ++ le 2 buried ++
      [byteOf erased, byteOf retired, byteOf discarded, byteOf erasedBy, byteOf retiredBy] ++
      le 2 leftOut
  | .spaceLow erased reclaimable size => [byteOf erased] ++ le 4 reclaimable ++ le 2 size
  | .segmentRetired seg cause eraseCount inUse count =>
    [byteOf seg, cause.code] ++ le 4 eraseCount ++ [byteOf inUse, byteOf count]
  | .recordLost ns setting count version key =>
    [byteOf ns, flag setting] ++ le 2 count ++ le 4 version ++ [byteOf key.length] ++ key
  | .readOnly cause inUse sn => [cause.code, byteOf inUse] ++ le 4 sn

/-- A notice as a frame of the reply queue: its kind, tag 0, status OK (R159). -/
def Notice.out (n : Notice) : Out :=
  { kind := n.kind, tag := 0, status := .ok, payload := n.payload }

/-- A notice raised when one of its kind is pending: the new values, with the count of RECORD_LOST
and SEGMENT_RETIRED one higher, RECORD_LOST staying at 65,535 (R158). -/
def Notice.merge (old new : Notice) : Notice :=
  match old, new with
  | .segmentRetired _ _ _ _ c, .segmentRetired seg cause eraseCount inUse _ =>
    .segmentRetired seg cause eraseCount inUse (c + 1)
  | .recordLost _ _ c _ _, .recordLost ns setting _ version key =>
    .recordLost ns setting (min (c + 1) Config.maxLosses) version key
  | _, _ => new

end Sys2Proof.Machine
end

