-- ==== Sys2Proof/Machine/Flags.lean ====
section
/-!
DEFINITION. What is computed from the state and not stored: the head and the segment counts (R45 to
R47), the directory counts (R7), the settings in force (R128), the write-lock test (R133), the lines
ATN and SDO (R160, R166, R175, R176), the link status record (R172) and the SPACE, PROTECT_STATUS and
MOUNTED figures.
-/

namespace Sys2Proof.Machine

open Sys2Proof

/-! ## The segment table -/

/-- An entry of a table for a segment out of use; also what a table that is empty (MOUNTING) gives. -/
def SegEntry.none_ : SegEntry :=
  { state := .retired, stamp := none, eraseCount := 0, used := 0, live := 0, suspect := false
    pin := false, reclaimMarked := false }

/-- The entry of segment `i` (R46). -/
def segAt (segs : List SegEntry) (i : Nat) : SegEntry := segs.getD i SegEntry.none_

/-- Dead bytes (R46). -/
def SegEntry.dead (e : SegEntry) : Nat := e.used - e.live

/-- How many segments are in a state (R63). -/
def countSegs (segs : List SegEntry) (st : SegState) : Nat :=
  (segs.filter fun e => e.state = st).length

/-- Segments not RETIRED (R61). -/
def inUse (segs : List SegEntry) : Nat := (segs.filter fun e => e.state ≠ .retired).length

/-- The erased count (R45). -/
def erasedCount (segs : List SegEntry) : Nat := countSegs segs .erased

/-- Reclaimable bytes: the dead bytes of all FILLED segments (R47). -/
def reclaimable (segs : List SegEntry) : Nat :=
  ((segs.filter fun e => e.state = .filled).map SegEntry.dead).sum

/-- The head: the one OPEN segment (R45, R46). -/
def headOf (segs : List SegEntry) : Option Nat := segs.findIdx? fun e => e.state = .opened

/-- The head's free bytes (R46), 0 without a head. -/
def headFree (segs : List SegEntry) : Nat :=
  match headOf segs with
  | some h => Config.recordArea - (segAt segs h).used
  | none => 0

/-- The fit test of R51: the head is not suspect and has the bytes free. -/
def fitsHead (segs : List SegEntry) (size : Nat) : Bool :=
  match headOf segs with
  | some h => !(segAt segs h).suspect && decide (size ≤ headFree segs)
  | none => false

/-- Segments by index with a measure, least measure first and lowest index among equals. -/
def leastSeg (segs : List SegEntry) (p : SegEntry → Bool) (measure : SegEntry → Nat) : Option Nat :=
  (List.range segs.length).foldl
    (fun best i =>
      if p (segAt segs i) then
        match best with
        | some b => if measure (segAt segs i) < measure (segAt segs b) then some i else some b
        | none => some i
      else best)
    none

/-- The next head: lowest erase count in the erased pool, lowest index among equals (R53). -/
def chooseHead (segs : List SegEntry) : Option Nat :=
  leastSeg segs (fun e => e.state = .erased) SegEntry.eraseCount

/-- The victim: the FILLED segment with the lowest open stamp (R73). -/
def chooseVictim (segs : List SegEntry) : Option Nat :=
  leastSeg segs (fun e => e.state = .filled) fun e => e.stamp.getD 0

/-! ## The directory -/

/-- LIVE entries hold a value. -/
def Entry.isLive (e : Entry) : Bool :=
  match e.state with
  | .live _ => true
  | .buried => false

/-- The value length of an entry, 0 while BURIED (R37). -/
def Entry.length (e : Entry) : Nat :=
  match e.state with
  | .live n => n
  | .buried => 0

/-- The size of the record an entry names (R48). -/
def Entry.recordSize (e : Entry) : Nat := Machine.recordSize e.key.length e.length

/-- A lookup by namespace and key (R5). -/
def lookup (dir : List Entry) (ns : Nat) (key : Bytes) : Option Entry :=
  dir.find? fun e => decide (e.ns = ns ∧ e.key = key)

/-- LIVE(n) (R7). -/
def liveCount (dir : List Entry) (ns : Nat) : Nat :=
  (dir.filter fun e => decide (e.ns = ns) && e.isLive).length

/-- LIVE total (R7). -/
def liveTotal (dir : List Entry) : Nat := (dir.filter Entry.isLive).length

/-- BURIED total (R7). -/
def buriedTotal (dir : List Entry) : Nat := (dir.filter fun e => !e.isLive).length

/-- The reserved count (R7, R91). -/
def reservedCount (s : State) : Nat := s.group.reserved.length

/-- Free slots (R7; log 43). -/
def freeSlots (s : State) : Nat := Config.dirSlots - (s.dir.length + reservedCount s)

/-! ## Settings in force, locks -/

/-- The entry of a setting (R128). -/
def settingOf (settings : List Setting) (id : Byte) : Option Setting :=
  settings.find? fun t => decide (t.id = id)

/-- A one-byte setting, 0 while absent. -/
def byteSetting (settings : List Setting) (id : Byte) : Byte :=
  match settingOf settings id with
  | some t => t.value.headD 0
  | none => 0

/-- The persistent locks (R128). -/
def persistentLocks (s : State) : Byte := byteSetting s.prot.settings idLocks

/-- The final switches (R128). -/
def finalSwitches (s : State) : Byte := byteSetting s.prot.settings idFinal

/-- LOCKS_FINAL is set (R144). -/
def locksFinal (s : State) : Bool := (finalSwitches s).getLsbD 0

/-- FORMAT_BAR is set (R144). -/
def formatBar (s : State) : Bool := (finalSwitches s).getLsbD 1

/-- The policy in force: UNSET while absent (R139). -/
def policyOf (settings : List Setting) : Policy :=
  match settingOf settings idPolicy with
  | some t =>
    if t.value = [Policy.plain.code] then .plain
    else if t.value = [Policy.passphrase.code] then .passphrase
    else .unset
  | none => .unset

/-- The stored passphrase (R128). -/
def passphraseOf (s : State) : Option Bytes :=
  (settingOf s.prot.settings idPassphrase).map Setting.value

/-- limit(n): 1,024 while absent (R9). -/
def limitOf (s : State) (ns : Nat) : Nat :=
  match settingOf s.prot.settings (idLimit ns) with
  | some t => leNat t.value
  | none => Config.dirSlots

/-- The write-locked namespaces (R133). -/
def writeLockedMask (s : State) : Byte := s.prot.sessionLocks ||| persistentLocks s

/-- A namespace is write-locked (R133). -/
def writeLocked (s : State) (ns : Nat) : Bool := (writeLockedMask s).getLsbD ns

/-! ## The record a PUT or DELETE meets: effective state (R27) and new keys (R8, R9) -/

/-- The group's last pending operation on a name (R27). -/
def lastPending (s : State) (ns : Nat) (key : Bytes) : Option Pending :=
  s.group.list.reverse.find? fun p => decide (p.ns = ns ∧ p.key = key)

/-- The effective state of a key (R27). -/
inductive Effective
  | live (version : Nat) | buried (version : Nat) | absent
  deriving DecidableEq, Repr

/-- R27: the last pending operation decides when there is one, else the directory. -/
def effective (s : State) (ns : Nat) (key : Bytes) : Effective :=
  match lastPending s ns key with
  | some p => if p.isPut then .live p.sn else .absent
  | none =>
    match lookup s.dir ns key with
    | some e => if e.isLive then .live e.version else .buried e.version
    | none => .absent

/-- A name is LIVE in the directory. -/
def dirLive (s : State) (ns : Nat) (key : Bytes) : Bool :=
  match lookup s.dir ns key with
  | some e => e.isLive
  | none => false

/-- A group exists (OPEN or FAILED). -/
def inGroup (s : State) : Bool := decide (s.group.state ≠ .noGroup)

/-- A key is new (R8). -/
def newKey (s : State) (ns : Nat) (key : Bytes) : Bool :=
  !dirLive s ns key &&
    match lastPending s ns key with
    | some p => !p.isPut
    | none => true

/-- The group holds a reservation for the key (R8, R96). -/
def hasReservation (s : State) (ns : Nat) (key : Bytes) : Bool :=
  s.group.reserved.contains (ns, key)

/-- A new key needs a free slot: outside a group when it has no entry, inside a group when it has no
reservation (R8). A key staged while LIVE has none, also when its entry is lost later (log 43). -/
def needsSlot (s : State) (ns : Nat) (key : Bytes) : Bool :=
  newKey s ns key &&
    (if inGroup s then !hasReservation s ns key else (lookup s.dir ns key).isNone)

/-- P(n): the names of the namespace whose last pending operation is a PUT and that are not LIVE
(R9). An operation is a name's last when no later one names it. -/
def pendingNew (s : State) (ns : Nat) : Nat :=
  (s.group.list.filter fun p =>
    decide (p.ns = ns) && p.isPut && !dirLive s p.ns p.key &&
      decide (lastPending s p.ns p.key = some p)).length

/-! ## Lines of the port -/

/-- ATN is asserted (R160, R175, R177). -/
def atn (s : State) : Bool :=
  s.powered && !s.rst && (decide (s.engine.watermark < s.replies.length) || !s.notices.isEmpty)

/-- What SDO carries from the next byte on: `none` while it is high-impedance, else the bytes of the
answer and the byte driven after them (R166 to R169, R176). -/
def sdo (s : State) : Option (Bytes × Byte) :=
  if s.powered && !s.rst && s.sel then
    if s.port.phase = .tooLong then some ([], verdictBadLength) else some (s.port.answer, nothingByte)
  else none

/-- The byte the port drives at a byte position of the transaction in progress, the operation byte's
being 0: 0xFF on the operation byte and on each byte of the host's part, then the answer, then 0xFF; or
BAD_LENGTH from the byte after a length byte above 248 (R167 to R169, R176). -/
def Port.drives (p : Port) (position : Nat) : Byte :=
  if position < p.received then nothingByte
  else if p.phase = .tooLong then verdictBadLength
  else p.answer.getD (position - p.received) nothingByte

/-- SDO at a bit of the transaction in progress, each byte's most significant bit first: `none` while it
is high-impedance (R166). -/
def sdoBit (s : State) (bit : Nat) : Option Bool :=
  if s.powered && !s.rst && s.sel then some ((s.port.drives (bit / 8)).getMsbD (bit % 8)) else none

/-- The bytes that the bits sampled on SDI since the assertion of SEL make up: eight bits each, most
significant bit first; fewer than eight bits at the end are discarded (R166). -/
def bytesOfBits (bits : List Bool) : Bytes :=
  match bits with
  | a :: b :: c :: d :: e :: f :: g :: h :: rest =>
    BitVec.ofBoolListBE [a, b, c, d, e, f, g, h] :: bytesOfBits rest
  | _ => []

/-- A byte string as the bits that carry it, each byte's most significant bit first (R166). -/
def bitsOfBytes (bytes : Bytes) : List Bool :=
  bytes.flatMap fun b => (List.range 8).map b.getMsbD

/-- The pending-notice mask (R172). -/
def noticeMask (s : State) : Byte := s.notices.foldl (fun m n => m ||| n.bit) 0

/-- The engine state as POLL shows it: IDLE throughout MOUNTING (R149, R172). -/
def shownEngine (s : State) : EngineState :=
  if s.log.device = .mounting then .idle else s.engine.state

/-- The 7 fields of the link status record (R172). -/
def statusFields (s : State) : Bytes :=
  [s.log.device.code, (shownEngine s).code, byteOf (Config.inboundSlots - s.inbound.length),
   byteOf s.replies.length, noticeMask s, s.group.state.code, s.reclaim.state.code]

/-- The link status record, 9 bytes (R172, R179). -/
def statusRecord (s : State) : Bytes := statusFields s ++ crcBytes (statusFields s)

/-! ## Reports -/

/-- The SPACE reply, 47 bytes (R63; spec/10, SPACE reply). -/
def spacePayload (s : State) : Bytes :=
  let segs := s.log.segs
  let head :=
    match headOf segs with
    | some h => byteOf h
    | none => 0xFF
  let free :=
    match headOf segs with
    | some h => if (segAt segs h).suspect then 0 else headFree segs
    | none => 0
  [s.log.device.code, s.reclaim.state.code, byteOf (countSegs segs .erased),
    byteOf (countSegs segs .opened), byteOf (countSegs segs .filled),
    byteOf (countSegs segs .reclaiming), byteOf (countSegs segs .erasing),
    byteOf (countSegs segs .retired), head] ++
    le 2 free ++ le 4 ((segs.map SegEntry.live).sum) ++ le 4 (reclaimable segs) ++ le 4 s.log.sn ++
    le 2 (liveTotal s.dir) ++ le 2 (buriedTotal s.dir) ++ le 2 (reservedCount s) ++
    le 2 (freeSlots s) ++ (List.range 8).flatMap fun n => le 2 (liveCount s.dir n)

/-- The PROTECT_STATUS reply, 9 bytes (R145). -/
def protectPayload (s : State) : Bytes :=
  [(policyOf s.prot.settings).code, flag s.prot.gateOpen, byteOf s.prot.unlockFails,
   s.prot.sessionLocks, s.prot.lockdowns, persistentLocks s, writeLockedMask s, finalSwitches s,
   flag (passphraseOf s).isSome]

end Sys2Proof.Machine
end

