-- ==== Sys2Proof/Machine/Ops.lean ====
section
/-!
DEFINITION. The named operations every block uses: changes of the segment table (R46, R47), the array
(R43, R44), the array controller with the erase pause (R58, R82), the reply queue and the notice set
(R156 to R158), and the end of the engine's current request (R149, R152).
-/

namespace Sys2Proof.Machine

open Sys2Proof

/-- The part acts: it has power and RST is not asserted (R108, R177). -/
def running (s : State) : Bool := s.powered && !s.rst

/-! ## The segment table -/

/-- Change one entry of the segment table. -/
def modSeg (i : Nat) (f : SegEntry → SegEntry) (s : State) : State :=
  { s with log := { s.log with segs := s.log.segs.modify i f } }

/-- Bytes of a segment move from dead to live (R47). -/
def addLive (i n : Nat) (s : State) : State := modSeg i (fun e => { e with live := e.live + n }) s

/-- Bytes of a segment move from live to dead (R47). -/
def subLive (i n : Nat) (s : State) : State := modSeg i (fun e => { e with live := e.live - n }) s

/-- A segment is marked suspect (R59). -/
def markSuspect (i : Nat) (s : State) : State := modSeg i (fun e => { e with suspect := true }) s

/-- The head is closed: FILLED, its tail used and dead at once (R47, R53). -/
def SegEntry.closed (e : SegEntry) : SegEntry :=
  { e with state := .filled, used := Config.recordArea }

/-- A segment just erased, in the pool (R83). -/
def SegEntry.pooled (e : SegEntry) (count : Nat) : SegEntry :=
  { e with state := .erased, stamp := none, eraseCount := count, used := 0, live := 0
           suspect := false, pin := false, reclaimMarked := false }

/-- A segment out of use (R53, R84). -/
def SegEntry.retire (e : SegEntry) : SegEntry :=
  { e with state := .retired, stamp := none, used := 0, live := 0, pin := false }

/-- A segment opened as the head (R53). -/
def SegEntry.openAs (e : SegEntry) (stamp : Nat) : SegEntry :=
  { e with state := .opened, stamp := some stamp, used := 0, live := 0, suspect := false
           pin := false, reclaimMarked := false }

/-- The erase count after a further erase: 2^32 - 1 stays (R44, R83, R122). -/
def nextEraseCount (n : Nat) : Nat := if n = Config.counterEnd then n else n + 1

/-! ## The array -/

/-- One segment of the array. -/
def arraySeg (s : State) (i : Nat) : ArraySeg := s.array.getD i ArraySeg.blank

/-- Change one segment of the array. -/
def modArray (i : Nat) (f : ArraySeg → ArraySeg) (s : State) : State :=
  { s with array := s.array.modify i f }

/-- A mark position of a descriptor. -/
def Marks.at (m : Marks) (p : MarkPos) : Mark :=
  match p with
  | .erased => m.erased
  | .opened => m.opened
  | .filled => m.filled
  | .reclaim => m.reclaim
  | .erase => m.erase
  | .retired => m.retired

/-- A descriptor with one position changed. -/
def Marks.put (m : Marks) (p : MarkPos) (c : Mark) : Marks :=
  match p with
  | .erased => { m with erased := c }
  | .opened => { m with opened := c }
  | .filled => { m with filled := c }
  | .reclaim => { m with reclaim := c }
  | .erase => { m with erase := c }
  | .retired => { m with retired := c }

/-- The position of a mark after its program completed: valid on success, failed on failure (R110). -/
def writeMark (i : Nat) (p : MarkPos) (carried : Nat) (ok : Bool) (s : State) : State :=
  modArray i (fun a => { a with marks := a.marks.put p (if ok then .valid carried else .failed) }) s

/-- Record bytes written into a segment: whole, or torn under the counter's number (log 41). -/
def writeSlot (loc : Loc) (record : Record) (whole : Bool) (s : State) : State :=
  modArray loc.seg
    (fun a =>
      { a with slots := a.slots ++
          [{ off := loc.off, size := record.size, record := if whole then some record else none
             residue := if whole then 0 else s.free }] })
    s

/-- The record slot at a location. -/
def slotAt (s : State) (loc : Loc) : Option Slot :=
  (arraySeg s loc.seg).slots.find? fun t => decide (t.off = loc.off)

/-- The whole record at a location: what a read whose check passes returns (R34, R48). -/
def recordAt (s : State) (loc : Loc) : Option Record :=
  match slotAt s loc with
  | some t => t.record
  | none => none

/-- An erase that succeeded: every mark and record gone (R44). -/
def eraseArray (i : Nat) (s : State) : State := modArray i (fun _ => ArraySeg.blank) s

/-- A mark position without a valid mark. -/
def Mark.lost (m : Mark) : Mark :=
  match m with
  | .valid _ => .failed
  | m => m

/-- A descriptor without a valid mark. -/
def Marks.lost (m : Marks) : Marks :=
  { erased := m.erased.lost, opened := m.opened.lost, filled := m.filled.lost
    reclaim := m.reclaim.lost, erase := m.erase.lost, retired := m.retired.lost }

/-- What an erase that failed or was aborted leaves (R127): the marks as before or no valid mark, and
any of the records. Free values (log 10). -/
def eraseResidue (n : Nat) (a : ArraySeg) : ArraySeg :=
  { marks := if Config.eraseKeepsMarks n then a.marks else a.marks.lost
    slots := a.slots.map fun t =>
      if Config.eraseKeepsRecord n t.off then t else { t with record := none, residue := n } }

/-- An erase that did not complete leaves its residue in the array. -/
def halfErase (i : Nat) (s : State) : State :=
  { modArray i (eraseResidue s.free) s with free := s.free + 1 }

/-- A mark position after a reset during its program: as it stood, valid or failed (R110); the ERASE
mark never as it stood (R81). Free values (log 9). -/
def abortMark (i : Nat) (p : MarkPos) (carried : Nat) (s : State) : State :=
  let choice : Option Bool :=
    if p = .erase then some (Config.abortedEraseMark s.free) else Config.abortedMark s.free
  match choice with
  | none => { s with free := s.free + 1 }
  | some ok => { writeMark i p carried ok s with free := s.free + 1 }

/-- A reset, or the loss of power, during an array operation (R58): a program is torn, an erase
incomplete, and a read leaves nothing. -/
def abortOp (op : ArrayOp) (s : State) : State :=
  match op with
  | .programRecord loc record => { writeSlot loc record false s with free := s.free + 1 }
  | .openedMark i stamp | .mountOpenedMark i stamp => abortMark i .opened stamp s
  | .filledMark i | .mountFilledMark i => abortMark i .filled 0 s
  | .reclaimMark i => abortMark i .reclaim 0 s
  | .eraseMark i => abortMark i .erase 0 s
  | .erasedMark i count | .mountErasedMark i count => abortMark i .erased count s
  | .retiredMark i _ | .mountRetiredMark i => abortMark i .retired 0 s
  | .erase i | .mountErase i => halfErase i s
  | .getFirstRead .. | .chunkRead .. | .copyRead _ | .mountRead => s

/-- Every array operation a reset finds in progress, a paused erase among them (R58, R82). -/
def abortArray (s : State) : State :=
  let s₁ :=
    match s.ctrl.cur with
    | some op => abortOp op s
    | none => s
  match s.ctrl.paused with
  | some i => halfErase i s₁
  | none => s₁

/-! ## The array controller (R58, R82) -/

/-- A read or a program arrives while an erase runs and fewer than 16 pauses have been taken: the erase
pauses, and what waits is served in arrival order, the new arrival last (R82). -/
def pauseErase (v : Nat) (op : ArrayOp) (s : State) : State :=
  let paused (next : ArrayOp) (rest : List ArrayOp) : State :=
    { s with ctrl := { s.ctrl with cur := some next, queue := rest, paused := some v
                                   pauseCount := s.ctrl.pauseCount + 1 }
             reclaim := { s.reclaim with state := .erasePaused } }
  match s.ctrl.queue with
  | [] => paused op []
  | first :: rest => paused first (rest ++ [op])

/-- An operation starts; an erase that starts has no pauses yet (R82). -/
def Controller.start (c : Controller) (op : ArrayOp) (rest : List ArrayOp) : Controller :=
  let count :=
    match op with
    | .erase _ => 0
    | _ => c.pauseCount
  { c with cur := some op, queue := rest, pauseCount := count }

/-- The block that asks for an operation (R53, R58). -/
def ArrayOp.requester (op : ArrayOp) : Requester :=
  match op with
  | .programRecord .. | .openedMark .. | .filledMark _ => .logManager
  | .getFirstRead .. | .chunkRead .. => .engine
  | .copyRead _ | .reclaimMark _ | .eraseMark _ | .erase _ | .erasedMark .. => .reclaim
  | .retiredMark _ asker => asker
  | .mountRead | .mountFilledMark _ | .mountErase _ | .mountErasedMark .. | .mountRetiredMark _
  | .mountOpenedMark .. => .mount

/-- The pair of requests that the log manager may have outstanding together: a record's program and the
FILLED mark of the old head (R58). -/
def ArrayOp.pairs (a b : ArrayOp) : Bool :=
  match a, b with
  | .programRecord .., .filledMark _ => true
  | .filledMark _, .programRecord .. => true
  | _, _ => false

/-- The requests outstanding: in progress, waiting, and an erase that stands paused (R58, R82). -/
def Controller.outstanding (c : Controller) : List ArrayOp :=
  c.cur.toList ++ c.queue ++ (c.paused.map ArrayOp.erase).toList

/-- A requester may have this request outstanding beside those it has (R58). -/
def Controller.admits (c : Controller) (op : ArrayOp) : Bool :=
  c.outstanding.all fun o => decide (o.requester ≠ op.requester) || o.pairs op

/-- A request reaches the array controller: it starts at once when the controller is idle, pauses a
running erase while that may still be paused, and waits its turn otherwise (R58, R82). -/
def arrive (op : ArrayOp) (s : State) : State :=
  let wait : State := { s with ctrl := { s.ctrl with queue := s.ctrl.queue ++ [op] } }
  match s.ctrl.cur with
  | none => { s with ctrl := s.ctrl.start op s.ctrl.queue }
  | some (.erase v) => if s.ctrl.pauseCount < Config.pauseLimit then pauseErase v op s else wait
  | some _ => wait

/-- A block asks for an operation: the request reaches the array controller at once, or, while the
block has a request outstanding that R58 admits no other beside, when that one has completed (R58;
log 42). -/
def ask (op : ArrayOp) (s : State) : State :=
  if s.ctrl.admits op then arrive op s
  else { s with ctrl := { s.ctrl with held := s.ctrl.held ++ [op] } }

/-- The first request held back that its requester may have outstanding now joins those that wait
(R58; log 42). -/
def Controller.release (c : Controller) : Controller :=
  match c.held.find? c.admits with
  | some op => { c with queue := c.queue ++ [op], held := c.held.erase op }
  | none => c

/-- The controller goes on from here: the next waiting operation starts, in arrival order, or else a
paused erase resumes (R58, R82; log 16). -/
def resume (c : Controller) (s : State) : State :=
  match c.queue with
  | op :: rest => { s with ctrl := c.start op rest }
  | [] =>
    match c.paused with
    | some v =>
      { s with ctrl := { c with cur := some (.erase v), paused := none }
               reclaim := { s.reclaim with state := .erasing } }
    | none => { s with ctrl := c }

/-- The operation in progress has completed: a request held back may arrive, and the controller goes on
(R58, R82; logs 16, 42). -/
def completeOp (s : State) : State := resume ({ s.ctrl with cur := none } : Controller).release s

/-- A GET's reads are no longer wanted: the result of one outstanding will be discarded (R42; log 31). -/
def ArrayOp.unwanted (op : ArrayOp) : ArrayOp :=
  match op with
  | .getFirstRead loc _ => .getFirstRead loc false
  | .chunkRead loc _ => .chunkRead loc false
  | op => op

/-- A stream has ended before its read completed: the read outstanding is unwanted, and one that the
engine holds back is not asked for (R42, R58; logs 31, 42). -/
def dropGetReads (s : State) : State :=
  { s with ctrl := { s.ctrl with
    cur := s.ctrl.cur.map ArrayOp.unwanted
    queue := s.ctrl.queue.map ArrayOp.unwanted
    held := s.ctrl.held.filter fun op => decide (op.requester ≠ .engine) } }

/-! ## The reply queue and the notice set (R156 to R158) -/

/-- The reply queue has a free slot. -/
def slotFree (s : State) : Bool := decide (s.replies.length < Config.replySlots)

/-- A frame enters the reply queue and takes the next reply sequence number (R156). -/
def enqueue (o : Out) (s : State) : State :=
  { s with replies := s.replies ++ [{ seq := s.replySeq, out := o }], replySeq := s.replySeq + 1 }

/-- These notices, oldest first, move into the reply queue while a slot is free; the others are
pending (R157). -/
def moveNotices (pending : List Notice) (s : State) : State :=
  match pending with
  | [] => { s with notices := [] }
  | n :: rest =>
    if slotFree s then moveNotices rest (enqueue n.out s) else { s with notices := n :: rest }

/-- Free slots go to the pending notices first (R157). -/
def drainNotices (s : State) : State := moveNotices s.notices s

/-- The notice set with one more raise (R158). -/
def addNotice (n : Notice) (set : List Notice) : List Notice :=
  match set with
  | [] => [n]
  | m :: rest => if m.kind = n.kind then m.merge n :: rest else m :: addNotice n rest

/-- A block raises a notice (R157, R158). -/
def raise (n : Notice) (s : State) : State :=
  drainNotices { s with notices := addNotice n s.notices }

/-- These decided replies, in order, enter the reply queue while a slot is free that no pending
notice claims; the others wait (R152, R157). -/
def moveDecided (waiting : List Out) (s : State) : State :=
  match waiting with
  | [] => { s with engine := { s.engine with decided := [] } }
  | o :: rest =>
    if slotFree s && s.notices.isEmpty then moveDecided rest (enqueue o s)
    else { s with engine := { s.engine with decided := o :: rest } }

/-- The engine with no request in hand (R149). -/
def Engine.toIdle (e : Engine) : Engine :=
  { e with state := .idle, request := none, assembly := none, job := none, stream := none
           decided := [], breaking := none }

/-- REPLY_WAIT ends when the last decided reply has entered the reply queue, unless a breaking frame
is to be handled (R24, R149). -/
def settleReplies (s : State) : State :=
  if s.engine.decided.isEmpty && s.engine.breaking.isNone then
    { s with engine := s.engine.toIdle }
  else s

/-- The current request's outcome is decided: these replies are queued, or wait in REPLY_WAIT; with
none the engine returns to IDLE (R149, R152). -/
def decide_ (replies : List Out) (s : State) : State :=
  settleReplies
    (moveDecided replies
      { s with engine := { s.engine with state := .replyWait, assembly := none, job := none
                                         stream := none } })

/-- A reply of a request: kind plus 0x80 and the request's tag (R152). -/
def Request.reply (r : Request) (status : Status) (payload : Bytes) : Out :=
  { kind := replyKind r.kind, tag := r.tag, status := status, payload := payload }

/-- An OK reply that QUIET mode omits for PUT, DELETE and SELECT is not queued (R155). -/
def omitted (kind : Byte) (status : Status) (mode : ReplyMode) : Bool :=
  decide (mode = .quiet) && decide (status = .ok) &&
    (decide (kind = kPut) || decide (kind = kDelete) || decide (kind = kSelect))

/-- The current request ends with this reply, or without it where its reply mode omits it (R29, R155). -/
def endRequest (status : Status) (payload : Bytes) (s : State) : State :=
  match s.engine.request with
  | none => decide_ [] s
  | some r =>
    if omitted r.kind status r.mode then decide_ [] s else decide_ [r.reply status payload] s

/-! ## The group's failure (R98) -/

/-- An OPEN group goes FAILED. -/
def failGroup (s : State) : State :=
  if s.group.state = .opened then { s with group := { s.group with state := .failed } } else s

end Sys2Proof.Machine
end

