-- ==== Sys2Proof/Machine/Owners.lean ====
section
/-!
DEFINITION. The claims the three owners of names take: the directory (spec/01 R12 to R18), the group
unit (spec/05 R94, R95, R102, R104, R106) and the settings table (spec/07 R129 to R131), each with its
moves of bytes between live and dead (R47).
-/

namespace Sys2Proof.Machine

open Sys2Proof

/-! ## The directory -/

/-- Put an entry in its place: it replaces the entry of its name, or is inserted in directory order
(R2, R5). -/
def dirPut (dir : List Entry) (e : Entry) : List Entry :=
  match dir with
  | [] => [e]
  | x :: rest =>
    if x.ns = e.ns ∧ x.key = e.key then e :: rest
    else if nameLt e.ns e.key x.ns x.key then e :: x :: rest
    else x :: dirPut rest e

/-- The directory without a name. -/
def dirRemove (dir : List Entry) (ns : Nat) (key : Bytes) : List Entry :=
  dir.filter fun e => !decide (e.ns = ns ∧ e.key = key)

/-- The record a LIVE entry of this name names moves from live to dead (R12, R13). -/
def dropPrevious (ns : Nat) (key : Bytes) (s : State) : State :=
  match lookup s.dir ns key with
  | some e => if e.isLive then subLive e.loc.seg e.recordSize s else s
  | none => s

/-- A put completion (R12). `counted` says that the record's bytes are live already, as those of a
CURRENT staged record are at commit (R14). -/
def putCompletion (ns : Nat) (key : Bytes) (sn length : Nat) (loc : Loc) (counted : Bool)
    (s : State) : State :=
  let s₁ := dropPrevious ns key s
  let s₂ := if counted then s₁ else addLive loc.seg (recordSize key.length length) s₁
  { s₂ with dir := dirPut s₂.dir { ns := ns, key := key, state := .live length, version := sn, loc := loc } }

/-- A delete completion (R13). `counted` says that the tombstone's bytes are live, as those of a
CURRENT staged tombstone are at commit; they move to dead (R14). -/
def deleteCompletion (ns : Nat) (key : Bytes) (sn : Nat) (loc : Loc) (counted : Bool)
    (s : State) : State :=
  let s₁ := dropPrevious ns key s
  let s₂ := if counted then subLive loc.seg (recordSize key.length 0) s₁ else s₁
  { s₂ with dir := dirPut s₂.dir { ns := ns, key := key, state := .buried, version := sn, loc := loc } }

/-- A buried drop: every BURIED entry whose tombstone lies in the segment leaves (R16). -/
def buriedDrop (seg : Nat) (s : State) : State :=
  { s with dir := s.dir.filter fun e => e.isLive || decide (e.loc.seg ≠ seg) }

/-- RECORD_LOST is raised with these values; a pending one counts them (R17, R106, R131). -/
def raiseLost (ns : Nat) (setting : Bool) (version : Nat) (key : Bytes) (s : State) : State :=
  raise (.recordLost ns setting 1 version key) s

/-- A record-lost removal (R17). -/
def lostRemoval (ns : Nat) (key : Bytes) (version : Nat) (loc : Loc) (s : State) : State :=
  match lookup s.dir ns key with
  | some e =>
    if e.isLive ∧ e.version = version ∧ e.loc = loc then
      raiseLost ns false version key
        (subLive loc.seg e.recordSize { s with dir := dirRemove s.dir ns key })
    else s
  | none => s

/-- Each LIVE entry's record moves from live to dead. -/
def deadenAll (dir : List Entry) (s : State) : State :=
  match dir with
  | [] => s
  | e :: rest => deadenAll rest (if e.isLive then subLive e.loc.seg e.recordSize s else s)

/-- A format clearing (R18). -/
def formatClearing (s : State) : State := { deadenAll s.dir s with dir := [] }

/-- A relocation sent to the directory (R15). -/
def dirRelocation (c : Copy) (dest : Loc) (s : State) : State :=
  match lookup s.dir c.ns c.key with
  | some e =>
    if e.isLive ∧ e.version = c.sn ∧ e.loc = c.loc then
      subLive c.loc.seg c.size
        (addLive dest.seg c.size { s with dir := dirPut s.dir { e with loc := dest } })
    else s
  | none => s

/-! ## The group unit -/

/-- The size of a staged record (R48). -/
def Pending.recordSize (p : Pending) : Nat := Machine.recordSize p.key.length p.length

/-- The CURRENT entry of a name. -/
def currentPending (list : List Pending) (ns : Nat) (key : Bytes) : Option Pending :=
  list.find? fun p => decide (p.standing = .current ∧ p.ns = ns ∧ p.key = key)

/-- Change the CURRENT entry of a name. -/
def modCurrent (ns : Nat) (key : Bytes) (f : Pending → Pending) (list : List Pending) :
    List Pending :=
  list.map fun p => if p.standing = .current ∧ p.ns = ns ∧ p.key = key then f p else p

/-- An entry is staged: the CURRENT entry of its name becomes SUPERSEDED and its record dead, and the
new record's bytes become live (R94, R95). -/
def stage (p : Pending) (s : State) : State :=
  let s₁ :=
    match currentPending s.group.list p.ns p.key with
    | some q => subLive q.loc.seg q.recordSize s
    | none => s
  let s₂ := addLive p.loc.seg p.recordSize s₁
  let earlier := modCurrent p.ns p.key (fun q => { q with standing := .superseded }) s₂.group.list
  { s₂ with group := { s₂.group with list := earlier ++ [p] } }

/-- The pending operations applied in staging order (R14). -/
def applyPending (list : List Pending) (s : State) : State :=
  match list with
  | [] => s
  | p :: rest =>
    let counted := decide (p.standing = .current)
    applyPending rest
      (if p.isPut then putCompletion p.ns p.key p.sn p.length p.loc counted s
       else deleteCompletion p.ns p.key p.sn p.loc counted s)

/-- A copy in hand that the group owned belongs to the directory from the commit on (R105), also while
its read is outstanding (log 48). -/
def Reclaim.ownerToDirectory (r : Reclaim) : Reclaim :=
  { r with copy := r.copy.map fun c =>
      if c.owner = .group ∧ c.placed = none then { c with owner := .directory } else c }

/-- The commit application, the release of the reservations and the move to NONE, in one claim (R14,
R100). It applies every entry, without a test of the slots (log 43). -/
def commitApplication (s : State) : State :=
  let s₁ := applyPending s.group.list s
  { s₁ with group := Group.reset, reclaim := s₁.reclaim.ownerToDirectory }

/-- The bytes of every CURRENT entry's record move from live to dead (R102). -/
def deadenPending (list : List Pending) (s : State) : State :=
  match list with
  | [] => s
  | p :: rest =>
    deadenPending rest (if p.standing = .current then subLive p.loc.seg p.recordSize s else s)

/-- The group is dropped in one step (R102). -/
def dropGroup (s : State) : State := { deadenPending s.group.list s with group := Group.reset }

/-- The pending-list entry a report or relocation names. -/
def pendingMatch (p : Pending) (c : Copy) : Bool :=
  decide (p.standing = .current ∧ p.ns = c.ns ∧ p.key = c.key ∧ p.sn = c.sn ∧ p.loc = c.loc)

/-- A relocation sent to the group unit (R104). -/
def groupRelocation (c : Copy) (dest : Loc) (s : State) : State :=
  if s.group.list.any (pendingMatch · c) then
    let s₁ := subLive c.loc.seg c.size (addLive dest.seg c.size s)
    let moved := s₁.group.list.map fun p => if pendingMatch p c then { p with loc := dest } else p
    { s₁ with group := { s₁.group with list := moved } }
  else s

/-- A record-lost report for a pending-list entry (R106). -/
def groupLost (c : Copy) (s : State) : State :=
  if s.group.list.any (pendingMatch · c) then
    let s₁ := subLive c.loc.seg c.size s
    let marked := s₁.group.list.map fun p => if pendingMatch p c then { p with standing := .lost } else p
    raiseLost c.ns false c.sn c.key
      (failGroup { s₁ with group := { s₁.group with list := marked } })
  else s

/-- Some staged record is LOST (R106). -/
def hasLost (s : State) : Bool := s.group.list.any fun p => decide (p.standing = .lost)

/-! ## The settings table -/

/-- The size of a SYSTEM record (R48). -/
def Setting.recordSize (t : Setting) : Nat := Machine.recordSize 1 t.value.length

/-- Put a setting in its place, in ascending order of id. -/
def settingsPut (settings : List Setting) (t : Setting) : List Setting :=
  match settings with
  | [] => [t]
  | x :: rest =>
    if x.id = t.id then t :: rest
    else if t.id.toNat < x.id.toNat then t :: x :: rest
    else x :: settingsPut rest t

/-- A settings write whose program succeeded (R129). -/
def settingsWrite (t : Setting) (s : State) : State :=
  let s₁ :=
    match settingOf s.prot.settings t.id with
    | some old => subLive old.loc.seg old.recordSize s
    | none => s
  let s₂ := addLive t.loc.seg t.recordSize s₁
  { s₂ with prot := { s₂.prot with settings := settingsPut s₂.prot.settings t } }

/-- The setting a report or relocation names: present, with that SN and location (R130, R131). -/
def settingMatch (c : Copy) (s : State) : Option Setting :=
  match settingOf s.prot.settings (c.key.headD 0) with
  | some t => if t.sn = c.sn ∧ t.loc = c.loc then some t else none
  | none => none

/-- A relocation sent to the settings table (R130). -/
def settingsRelocation (c : Copy) (dest : Loc) (s : State) : State :=
  match settingMatch c s with
  | some t =>
    let s₁ := subLive c.loc.seg c.size (addLive dest.seg c.size s)
    { s₁ with prot := { s₁.prot with settings := settingsPut s₁.prot.settings { t with loc := dest } } }
  | none => s

/-- A copy's relocation goes to its owner (R77). -/
def relocate (c : Copy) (dest : Loc) (s : State) : State :=
  match c.owner with
  | .directory => dirRelocation c dest s
  | .group => groupRelocation c dest s
  | .settings => settingsRelocation c dest s

/-! ## The needed test of reclaim (R74) -/

/-- What an owner names: a copy in hand not read yet. -/
def Copy.of (owner : Owner) (ns : Nat) (key : Bytes) (sn : Nat) (loc : Loc) (size : Nat) : Copy :=
  { owner := owner, ns := ns, key := key, sn := sn, loc := loc, size := size, buffer := none
    tagged := false, placed := none, dropped := false }

/-- Every record some owner names now: LIVE entries, CURRENT pending entries, present settings. -/
def namedRecords (s : State) : List Copy :=
  (s.dir.filter Entry.isLive).map (fun e => Copy.of .directory e.ns e.key e.version e.loc e.recordSize)
    ++ (s.group.list.filter fun p => decide (p.standing = .current)).map
      (fun p => Copy.of .group p.ns p.key p.sn p.loc p.recordSize)
    ++ s.prot.settings.map (fun t => Copy.of .settings 0 [t.id] t.sn t.loc t.recordSize)

/-- The named record of a segment at the lowest location at or above a position (R74). -/
def lowestNamed (seg position : Nat) (s : State) : Option Copy :=
  (namedRecords s).foldl
    (fun best c =>
      if c.loc.seg = seg ∧ position ≤ c.loc.off then
        match best with
        | some b => if c.loc.off < b.loc.off then some c else some b
        | none => some c
      else best)
    none

end Sys2Proof.Machine
end

