-- ==== Sys2Proof/Machine/Placement.lean ====
section
/-!
DEFINITION. The log manager's placement of records (spec/03 R49 to R54, R59 to R62): the end of an
engine record, entry into READ_ONLY, the moment of placement, and the opening of a new head.
-/

namespace Sys2Proof.Machine

open Sys2Proof

/-! ## The end of an engine record that was not placed or failed -/

/-- A FORMAT whose marker's program has succeeded carries the marker's SN and the number of settings
rewritten; every other record's end carries nothing (R65, R181). -/
def Job.endPayload (j : Job) : Bytes :=
  match j.purpose with
  | .formatRewrite marker done _ => le 4 marker ++ [byteOf done]
  | _ => []

/-- A PUT that is withdrawn before placement returns the reservation it took (R41, R96). -/
def returnReservation (j : Job) (s : State) : State :=
  match j.purpose with
  | .put true =>
    { s with group := { s.group with reserved := s.group.reserved.erase (j.record.ns, j.record.key) } }
  | _ => s

/-- What the end of an engine record does to the group: NO_SPACE and MEDIA_FAULT of a staged
operation or of a COMMIT marker fail it (R29, R32, R98, R100). -/
def jobGroupEffect (j : Job) (status : Status) (s : State) : State :=
  match status with
  | .noSpace | .mediaFault =>
    match j.purpose with
    | .put _ | .delete | .commit => failGroup s
    | .setting | .formatMarker | .formatRewrite .. => s
  | .cancelled => returnReservation j s
  | _ => s

/-- The engine's record leaves the log manager with a status other than success: its claim and its
foreground need go, and the request ends (R29, R32, R57, R60, R62, R65, R69, R100, R129). -/
def endJob (status : Status) (s : State) : State :=
  match s.engine.job with
  | none => s
  | some j =>
    let s₁ := { s with log := { s.log with engineWaits := false }
                       reclaim := { s.reclaim with foreground := false } }
    endRequest status j.endPayload (jobGroupEffect j status s₁)

/-! ## The end of a TIDY and of a stopped pass (R78, R88) -/

/-- A TIDY is the current request and its passes run (R71). -/
def tidyRunning (s : State) : Bool :=
  match s.engine.request with
  | some r => decide (s.engine.state = .busy) && decide (r.kind = kTidy)
  | none => false

/-- The payload of a TIDY's reply: passes done and bytes freed (R181). -/
def tidyTotals (done freed : Nat) : Bytes := [byteOf done] ++ le 4 freed

/-- The TIDY in progress ends (R88). -/
def endTidy (s : State) : State :=
  if tidyRunning s then
    let status : Status :=
      if s.reclaim.tidyCancelled then .cancelled
      else if s.log.device = .readOnly then .readOnly
      else .ok
    endRequest status (tidyTotals s.reclaim.tidyDone s.reclaim.tidyFreed)
      { s with reclaim := { s.reclaim with tidyRemaining := 0 } }
  else s

/-- An abandoned copy stops the pass: the unit goes IDLE, the victim stays RECLAIMING, and a TIDY
ends (R78, R88). -/
def stopPass (s : State) : State :=
  endTidy { s with log := { s.log with copyWaits := false }
                   reclaim := { s.reclaim with state := .idle, victim := none, copy := none } }

/-! ## Entry into READ_ONLY (R61, R62) -/

/-- The grant of a record that is not placed yet and will not be: while its OPENED mark is programmed
the grant lasts, abandoned; otherwise it ends (R53). -/
def Grant.giveUp (g : Grant) : Option Grant :=
  match g.stage with
  | .opening _ => some { g with abandoned := true }
  | .choosing | .programming _ => none

/-- The grant belongs to this claimant and its record is neither placed nor withdrawn. -/
def Grant.unplaced (g : Grant) (c : Claimant) : Bool :=
  decide (g.claimant = c) && !g.abandoned &&
    match g.stage with
    | .programming _ => false
    | .choosing | .opening _ => true

/-- The engine's record, waiting or granted and not yet placed, ends: READ_ONLY for a first attempt,
MEDIA_FAULT for a retry (R53, R60, R62). -/
def refuseEngine (s : State) : State :=
  let waiting (s : State) : State :=
    if s.log.engineWaits || decide (s.engine.state = .waitingSpace) then endJob .readOnly s else s
  match s.log.grant with
  | some g =>
    if g.unplaced .engine then
      endJob (if g.retry then .mediaFault else .readOnly)
        { s with log := { s.log with grant := g.giveUp } }
    else waiting s
  | none => waiting s

/-- The reclaim unit's copy, waiting or granted and not yet placed, is abandoned (R62, R78). -/
def refuseCopy (s : State) : State :=
  let waiting (s : State) : State := if s.log.copyWaits then stopPass s else s
  match s.log.grant with
  | some g =>
    if g.unplaced .reclaim then stopPass { s with log := { s.log with grant := g.giveUp } }
    else waiting s
  | none => waiting s

/-- The device enters READ_ONLY, at most once between resets (R61, R62). -/
def enterReadOnly (cause : RoCause) (s : State) : State :=
  if s.log.device = .ready then
    let s₁ := { s with log := { s.log with device := .readOnly } }
    let s₂ := failGroup (refuseCopy (refuseEngine s₁))
    raise (.readOnly cause (inUse s₂.log.segs) s₂.log.sn) s₂
  else s

/-! ## Retirement (R53, R84, R85) -/

/-- SEGMENT_RETIRED is raised (R85). -/
def raiseRetired (seg : Nat) (cause : RetireCause) (s : State) : State :=
  raise (.segmentRetired seg cause (segAt s.log.segs seg).eraseCount (inUse s.log.segs) 1) s

/-- The READ_ONLY threshold after a retirement (R61). -/
def retirementTest (s : State) : State :=
  if inUse s.log.segs < Config.minSegments then enterReadOnly .retirement s else s

/-! ## The moment of placement (R49, R52, R76) -/

/-- A copy carries the group tag when its original does, the group is OPEN or FAILED, and its SN is
not below the group's first SN (R76). -/
def keepsTag (s : State) (r : Record) : Bool :=
  r.tagged && inGroup s &&
    match s.group.firstSn with
    | some f => decide (f ≤ r.sn)
    | none => false

/-- The record as it is placed: an engine record's first attempt takes the SN counter's value, a copy
its tag, and a retry is the same record again (R49, R59, R76). -/
def placedRecord (g : Grant) (s : State) : Record :=
  if g.retry then g.record
  else
    match g.claimant with
    | .engine => { g.record with sn := s.log.sn }
    | .reclaim => { g.record with tagged := keepsTag s g.record }

/-- Where the next record goes in a segment: its write offset (R43, R46). -/
def writeLoc (seg : Nat) (s : State) : Loc :=
  { seg := seg, off := Config.descriptorBytes + (segAt s.log.segs seg).used }

/-- The bytes of a placed record count as used, and so as dead until a claim counts them live, and the
grant goes on to the record's program (R47, R52). -/
def occupy (g : Grant) (head : Nat) (s : State) : State :=
  let record := placedRecord g s
  let placed : Grant := { g with record := record, stage := .programming (writeLoc head s) }
  let s₁ := modSeg head (fun e => { e with used := e.used + record.size }) s
  { s₁ with log := { s₁.log with grant := some placed } }

/-- The copy in hand is placed here (R67, R76). -/
def copyPlaced (record : Record) (loc : Loc) (s : State) : State :=
  let copy := s.reclaim.copy.map fun c => { c with placed := some loc, tagged := record.tagged }
  { s with reclaim := { s.reclaim with
    copy := copy, bytesPlaced := s.reclaim.bytesPlaced + record.size } }

/-- The engine's record is placed: the engine is BUSY, its need for space is over, and the SN counter
steps up by one when the record took its value (R29, R49, R69). -/
def enginePlaced (takesSn : Bool) (s : State) : State :=
  { s with engine := { s.engine with state := .busy }
           reclaim := { s.reclaim with foreground := false }
           log := { s.log with sn := if takesSn then s.log.sn + 1 else s.log.sn } }

/-- The SN counter has reached 2^32 - 1: the device enters READ_ONLY (R49). -/
def exhaustionTest (s : State) : State :=
  if s.log.sn = Config.counterEnd then enterReadOnly .snExhaustion s else s

/-- A record is placed at the head's write offset: it takes its SN, its bytes count as used and dead,
and its program is asked for; the SN counter reaching 2^32 - 1 enters READ_ONLY (R49, R52). -/
def placeAt (g : Grant) (head : Nat) (s : State) : State :=
  let record := placedRecord g s
  let program := ArrayOp.programRecord (writeLoc head s) record
  let s₁ := occupy g head s
  match g.claimant with
  | .reclaim => ask program (copyPlaced record (writeLoc head s) s₁)
  | .engine =>
    let s₂ := ask program (enginePlaced (!g.retry) s₁)
    if g.retry then s₂ else exhaustionTest s₂

/-- A new head is chosen and its OPENED mark asked for, or stamp exhaustion enters READ_ONLY (R50,
R53). -/
def openHead (g : Grant) (s : State) : State :=
  if s.log.stamp = Config.counterEnd then
    enterReadOnly .stampExhaustion { s with log := { s.log with grant := some g } }
  else
    match chooseHead s.log.segs with
    | none => s
    | some v =>
      ask (.openedMark v s.log.stamp)
        { s with log := { s.log with grant := some { g with stage := .opening v }
                                     stamp := s.log.stamp + 1 } }

/-- Under the grant: the record is placed where it fits, else a new head is opened (R51). -/
def placeOrOpen (g : Grant) (s : State) : State :=
  match headOf s.log.segs with
  | some h => if fitsHead s.log.segs g.record.size then placeAt g h s else openHead g s
  | none => openHead g s

/-- An engine record may be placed now: it fits in the head, or the floor admits a new head (R51,
R54). -/
def engineMayPlace (size : Nat) (s : State) : Bool :=
  fitsHead s.log.segs size || decide (2 ≤ erasedCount s.log.segs)

/-- SPACE_LOW is raised with a NO_SPACE decision (R56). -/
def raiseSpaceLow (size : Nat) (s : State) : State :=
  raise (.spaceLow (erasedCount s.log.segs) (reclaimable s.log.segs) size) s

end Sys2Proof.Machine
end

