-- ==== Sys2Proof/Machine/Reclaim.lean ====
section
/-!
DEFINITION. The reclaim unit (spec/04): triggers and thresholds (R69 to R72), victim and walk (R73 to
R79), pins (R80), the ERASE mark (R81), retirement (R84), pass completion (R86) with the
re-examination of a waiting record (R57, R87).

A pass completion may start the next pass at once, and a pass whose victim already carries a RECLAIM
mark may walk, and so complete, at once: `weighPassWithin` recurses on a bound of the passes that can
follow one another in one step. Each such completion retires a segment, so 65 is never reached (log 39).
-/

namespace Sys2Proof.Machine

open Sys2Proof

/-! ## Triggers (R69 to R72) -/

/-- The start condition of the background thresholds (R70). -/
def backgroundStart (s : State) : Bool :=
  decide (erasedCount s.log.segs ≤ 3) || decide (64 ≤ buriedTotal s.dir)

/-- Some segment is FILLED. -/
def anyFilled (s : State) : Bool := decide (0 < countSegs s.log.segs .filled)

/-- The stop condition of the background thresholds (R70). -/
def backgroundStop (s : State) : Bool :=
  (decide (6 ≤ erasedCount s.log.segs) && decide (buriedTotal s.dir < 32)) ||
    decide (reclaimable s.log.segs = 0) || !anyFilled s

/-- The background flag after a test (R70), in READ_ONLY as in READY (R72; log 44). -/
def testBackground (s : State) : State :=
  if backgroundStop s then { s with reclaim := { s.reclaim with background := false } }
  else if backgroundStart s then { s with reclaim := { s.reclaim with background := true } }
  else s

/-- A pass starts (R72). -/
def passDue (s : State) : Bool :=
  decide (s.reclaim.state = .idle) && decide (s.log.device = .ready) && anyFilled s &&
    (s.reclaim.foreground || decide (0 < s.reclaim.tidyRemaining) || s.reclaim.background)

/-! ## A record waiting for space (R57, R87) -/

/-- The engine's record waits for space and has not claimed the append point again. -/
def waitsForSpace (s : State) : Bool :=
  decide (s.engine.state = .waitingSpace) && !s.log.engineWaits &&
    match s.log.grant with
    | some g => !g.unplaced .engine
    | none => true

/-- The engine's grant over a record that may be placed. -/
def Grant.ofJob (j : Job) : Grant :=
  { claimant := .engine, record := j.record, retry := false, stage := .choosing, abandoned := false }

/-- A COMMIT marker whose group has gone FAILED since its checks (R98, R106; log 21). -/
def commitLost (j : Job) (s : State) : Bool :=
  decide (j.purpose = .commit) && decide (s.group.state = .failed)

/-- An engine record that may be placed takes the free append point. -/
def takeAppendPoint (j : Job) (s : State) : State :=
  if commitLost j s then endJob .groupFailed s else placeOrOpen (Grant.ofJob j) s

/-- The re-examination of a waiting record at a pass completion (R57, R87; log 19). -/
def reexamine (s : State) : State :=
  match s.engine.job with
  | none => s
  | some j =>
    if waitsForSpace s then
      if engineMayPlace j.record.size s then
        let s₁ := { s with reclaim := { s.reclaim with foreground := false } }
        if s₁.log.grant = none then takeAppendPoint j s₁
        else { s₁ with log := { s₁.log with engineWaits := true } }
      else if j.record.size ≤ reclaimable s.log.segs then s
      else endJob .noSpace (raiseSpaceLow j.record.size s)
    else s

/-! ## The pass (R73 to R86) -/

/-- The unit with no pass in hand (R67, R86). -/
def Reclaim.clearPass (r : Reclaim) : Reclaim :=
  { r with state := .idle, victim := none, position := 64, copy := none, bytesPlaced := 0 }

/-- A completed pass counts for the TIDY in progress (R86). -/
def countPass (freed : Nat) (s : State) : State :=
  if tidyRunning s then
    { s with reclaim := { s.reclaim with
      tidyDone := s.reclaim.tidyDone + 1, tidyFreed := s.reclaim.tidyFreed + freed
      tidyRemaining := s.reclaim.tidyRemaining - 1 } }
  else s

/-- The TIDY in progress ends when no pass remains to it, no segment is FILLED or the device is
READ_ONLY (R88). -/
def tidyTest (s : State) : State :=
  if s.reclaim.tidyRemaining = 0 ∨ !anyFilled s ∨ s.log.device = .readOnly then endTidy s else s

/-- A pass completes (R86): the unit's pass state is cleared, and the TIDY totals, the waiting record,
the thresholds, the TIDY's end and the next pass are settled in that order. -/
def completePassWith (weigh : State → State) (freed : Nat) (s : State) : State :=
  weigh (tidyTest (testBackground (reexamine
    (countPass freed { s with reclaim := s.reclaim.clearPass }))))

/-- What a pass completed through the ERASED mark frees for a TIDY (R83). -/
def freedBytes (s : State) : Nat := Config.recordArea - s.reclaim.bytesPlaced

/-- The reclaim unit retires its victim, and the pass completes (R84, R85). -/
def retireVictimWith (weigh : State → State) (v : Nat) (cause : RetireCause) (s : State) : State :=
  let s₁ := buriedDrop v (modSeg v SegEntry.retire (ask (.retiredMark v) s))
  completePassWith weigh 0 (retirementTest (raiseRetired v cause s₁))

/-- The walk has ended, or the pin it waited for is released: wait for the pin, retire a suspect
victim, or ask for the ERASE mark (R79 to R81). -/
def leaveWalkWith (weigh : State → State) (v : Nat) (s : State) : State :=
  if (segAt s.log.segs v).pin then { s with reclaim := { s.reclaim with state := .pinWait } }
  else if (segAt s.log.segs v).suspect then retireVictimWith weigh v .suspect s
  else ask (.eraseMark v) { s with reclaim := { s.reclaim with state := .erasing } }

/-- One step of the walk: the needed record at the lowest location becomes the copy in hand and its
read is asked for, or the walk ends (R74, R79). -/
def walkStepWith (weigh : State → State) (s : State) : State :=
  match s.reclaim.victim with
  | none => s
  | some v =>
    match lowestNamed v s.reclaim.position s with
    | some c =>
      let position := c.loc.off + c.size
      ask (.copyRead c.loc) { s with reclaim := { s.reclaim with copy := some c, position := position } }
    | none => leaveWalkWith weigh v { s with reclaim := { s.reclaim with copy := none } }

/-- The unit with a pass in hand over this victim, its walk at the record area's start (R67, R73). -/
def Reclaim.onVictim (r : Reclaim) (v : Nat) : Reclaim :=
  { r with state := .copying, victim := some v, position := 64, copy := none, bytesPlaced := 0 }

/-- The victim is RECLAIMING and its pass in hand (R73). -/
def startPass (v : Nat) (s : State) : State :=
  let s₁ := modSeg v (fun e => { e with state := .reclaiming }) s
  { s₁ with reclaim := s₁.reclaim.onVictim v }

/-- A pass starts: the victim is chosen and its RECLAIM mark asked for. A victim that carries the mark
already is walked at once (R73, R120). -/
def beginPassWith (weigh : State → State) (s : State) : State :=
  match chooseVictim s.log.segs with
  | none => s
  | some v =>
    if (segAt s.log.segs v).reclaimMarked then walkStepWith weigh (startPass v s)
    else ask (.reclaimMark v) (startPass v s)

/-- Whether a pass starts is weighed (R72), with a bound on the passes that follow in the same step. -/
def weighPassWithin : Nat → State → State
  | 0, s => s
  | n + 1, s => if passDue s then beginPassWith (weighPassWithin n) s else s

/-- Whether a pass starts is weighed (R72). -/
def weighPass (s : State) : State := weighPassWithin (Config.segments + 1) s

/-- R74, R79. -/
def walkStep (s : State) : State := walkStepWith weighPass s

/-- R79 to R81. -/
def leaveWalk (v : Nat) (s : State) : State := leaveWalkWith weighPass v s

/-- R84. -/
def retireVictim (v : Nat) (cause : RetireCause) (s : State) : State :=
  retireVictimWith weighPass v cause s

/-- R86. -/
def completePass (freed : Nat) (s : State) : State := completePassWith weighPass freed s

/-- The thresholds are tested and a pass may start (R70, R72). -/
def backgroundEvent (s : State) : State := weighPass (testBackground s)

/-- A GET stream's pin is released; a pass in PIN_WAIT on that segment goes on (R80). -/
def releasePin (seg : Nat) (s : State) : State :=
  let s₁ := modSeg seg (fun e => { e with pin := false }) s
  if s₁.reclaim.state = .pinWait ∧ s₁.reclaim.victim = some seg then leaveWalk seg s₁ else s₁

end Sys2Proof.Machine
end

