-- ==== Sys2Proof/Machine/Arbiter.lean ====
section
/-!
DEFINITION. The append-point arbiter (spec/03 R55) and the attempts under its grant: the tests of R51
and R54, the need-for-space decision (R56), and attempts that end in failure (R60).
-/

namespace Sys2Proof.Machine

open Sys2Proof

/-- The engine's record waits for space, with a foreground need for reclaim (R57, R69). -/
def waitForSpace (s : State) : State :=
  { s with engine := { s.engine with state := .waitingSpace }
           reclaim := { s.reclaim with foreground := true } }

/-- The need-for-space decision on a first attempt: the record waits for space, giving up its claim,
or fails NO_SPACE with SPACE_LOW (R56, R69). -/
def needForSpace (j : Job) (s : State) : State :=
  if j.record.size ≤ reclaimable s.log.segs then weighPass (waitForSpace s)
  else endJob .noSpace (raiseSpaceLow j.record.size s)

/-- The engine's record is granted the append point, which is free: its first attempt (R51, R54). -/
def attemptEngine (s : State) : State :=
  let s₁ := { s with log := { s.log with engineWaits := false } }
  match s₁.engine.job with
  | none => s₁
  | some j =>
    if s₁.log.device ≠ .ready then endJob .readOnly s₁
    else if commitLost j s₁ then endJob .groupFailed s₁
    else if engineMayPlace j.record.size s₁ then placeOrOpen (Grant.ofJob j) s₁
    else needForSpace j s₁

/-- The grant over the copy in hand. -/
def Grant.ofCopy (record : Record) (retry : Bool) : Grant :=
  { claimant := .reclaim, record := record, retry := retry, stage := .choosing, abandoned := false }

/-- A copy under the grant: it is placed or a new head opened for it, the last ERASED segment included;
without one, or in READ_ONLY, it is abandoned (R51, R60, R78). -/
def attemptCopyWith (record : Record) (retry : Bool) (s : State) : State :=
  let g := Grant.ofCopy record retry
  if s.log.device ≠ .ready then stopPass { s with log := { s.log with grant := none } }
  else if fitsHead s.log.segs record.size ∨ 1 ≤ erasedCount s.log.segs then placeOrOpen g s
  else enterReadOnly .copyUnplaceable { s with log := { s.log with grant := some g } }

/-- The reclaim unit's copy is granted the append point, which is free. -/
def attemptCopy (s : State) : State :=
  let s₁ := { s with log := { s.log with copyWaits := false } }
  match s₁.reclaim.copy with
  | some c =>
    match c.buffer with
    | some record => attemptCopyWith record false s₁
    | none => s₁
  | none => s₁

/-- After the engine's grant was given up in the same step, a waiting copy is granted. -/
def thenCopy (s : State) : State :=
  if s.log.grant = none ∧ s.log.copyWaits ∧ s.log.device = .ready then attemptCopy s else s

/-- After the copy's grant was given up in the same step, a waiting engine record is granted. -/
def thenEngine (s : State) : State :=
  if s.log.grant = none ∧ s.log.engineWaits ∧ s.log.device = .ready then attemptEngine s else s

/-- The append point falls free and the arbiter grants it: to the one claimant waiting, or, when both
wait, to the engine with 2 or more ERASED segments and to the reclaim unit with 1 or 0 (R55). -/
def grantNext (s : State) : State :=
  if s.log.grant ≠ none ∨ s.log.device ≠ .ready then s
  else if s.log.engineWaits ∧ s.log.copyWaits then
    if 2 ≤ erasedCount s.log.segs then thenCopy (attemptEngine s) else thenEngine (attemptCopy s)
  else if s.log.engineWaits then thenCopy (attemptEngine s)
  else if s.log.copyWaits then thenEngine (attemptCopy s)
  else s

/-- The engine has this record to place, and no assembly any more (R29, R149). -/
def startJob (j : Job) (s : State) : State :=
  { s with engine := { s.engine with state := .busy, job := some j, assembly := none } }

/-- The engine hands a record to the log manager: it is granted at once when the append point is free,
and waits otherwise (R55); the engine is BUSY (R29). -/
def handOver (j : Job) (s : State) : State :=
  let s₁ := startJob j s
  if s₁.log.grant = none then attemptEngine s₁
  else if s₁.log.device ≠ .ready then endJob .readOnly s₁
  else { s₁ with log := { s₁.log with engineWaits := true } }

/-- The copy in hand claims the append point (R76); in READ_ONLY it is abandoned (R78). -/
def claimCopy (s : State) : State :=
  if s.log.device ≠ .ready then stopPass s
  else if s.log.grant = none then attemptCopy s
  else { s with log := { s.log with copyWaits := true } }

/-- A retry under the grant held (R59, R60): an engine record keeps the floor and cannot wait; a copy
may take the last ERASED segment. A retry that the floor keeps from a new head ends MEDIA_FAULT and
raises no SPACE_LOW (R56; log 51). -/
def attemptRetry (g : Grant) (s : State) : State :=
  match g.claimant with
  | .reclaim => attemptCopyWith g.record true s
  | .engine =>
    if s.log.device = .ready ∧ 2 ≤ erasedCount s.log.segs then
      openHead { g with retry := true, stage := .choosing } s
    else endJob .mediaFault { s with log := { s.log with grant := none } }

end Sys2Proof.Machine
end

