-- ==== Sys2Proof/Machine/Resets.lean ====
section
/-!
DEFINITION. The resets and the power (spec/06 R108, R127; spec/08 R165; spec/09 R176, R177): what
every reset does to the working state, and the start of mount.
-/

namespace Sys2Proof.Machine

open Sys2Proof

/-- The port after a reset: idle, or, when SEL is still asserted, starting no transaction before SEL
has been released (R176). -/
def portAfterReset (s : State) : Port :=
  if s.sel then { Port.reset with phase := .abandoned } else Port.reset

/-- Every block's working state takes its reset value, the array operation in progress is aborted and
the array is kept (R58, R66, R90, R107, R108, R132, R147, R165). The failed-unlock counter is kept by
the RESET request alone (R142). -/
def resetBlocks (kind : ResetKind) (s : State) : State :=
  let s₁ := abortArray s
  { s₁ with
    resetKind := kind, port := portAfterReset s₁, inbound := [], engine := Engine.reset
    replies := [], replySeq := 0, notices := [], dir := [], group := Group.reset
    prot := Protection.reset (if kind = .resetRequest then s₁.prot.unlockFails else 0)
    log := Log.reset, ctrl := Controller.reset, reclaim := Reclaim.reset, mount := none }

/-- Mount starts, and asks for its first read (R108, R110). -/
def startMount (s : State) : State :=
  { s with mount := some Mount.start, ctrl := { s.ctrl with cur := some .mountRead } }

/-- A reset whose mount starts at once (R108). -/
def resetPart (kind : ResetKind) (s : State) : State := startMount (resetBlocks kind s)

/-! ## The events -/

/-- POWER_ON (R108, R142, R176): a reset of kind POWER_ON; with RST asserted the part holds in reset
(log 33). -/
def powerOnEffect (s : State) : State :=
  let s₁ := resetBlocks .powerOn { s with powered := true }
  if s.rst then s₁ else startMount s₁

/-- POWER_LOSS (R58, R108): the array operation in progress is aborted, the working state and the link
transaction are gone, and the part answers nothing until POWER_ON (log 32). -/
def powerLossEffect (s : State) : State :=
  if s.powered then { resetBlocks .powerOn s with powered := false, resetKind := s.resetKind } else s

/-- RST is asserted for long enough: the part resets and holds in reset (R108, R177). -/
def rstAssert (s : State) : State :=
  if s.powered then { resetBlocks .rstLine s with rst := true } else { s with rst := true }

/-- RST_ASSERTED (R177): a full pulse resets, a short one is ignored, and one between the two figures
does either, which is free (log 11). -/
def rstAssertedEffect (width : PulseWidth) (s : State) : State :=
  if s.rst then s
  else
    match width with
    | .full => rstAssert s
    | .short => s
    | .between =>
      let s₁ := { s with free := s.free + 1 }
      if Config.pulseResets s.free then rstAssert s₁ else s₁

/-- RST_RELEASED (R108, R177): mount starts, and the port starts no transaction before SEL has been
released when SEL is asserted now (R176). -/
def rstReleasedEffect (s : State) : State :=
  if s.rst then
    let s₁ := { s with rst := false }
    if s.powered then startMount { s₁ with port := portAfterReset s₁ } else s₁
  else s

/-- POWER_ON. -/
def execPowerOn (s : State) : Host.Outcome State Fault Refusal := .next (powerOnEffect s)

/-- POWER_LOSS. -/
def execPowerLoss (s : State) : Host.Outcome State Fault Refusal := .next (powerLossEffect s)

/-- RST_ASSERTED. -/
def execRstAsserted (width : PulseWidth) (s : State) : Host.Outcome State Fault Refusal :=
  .next (rstAssertedEffect width s)

/-- RST_RELEASED. -/
def execRstReleased (s : State) : Host.Outcome State Fault Refusal := .next (rstReleasedEffect s)

end Sys2Proof.Machine
end

