-- ==== Sys2Proof/Machine/Streams.lean ====
section
/-!
DEFINITION. GET streams (spec/02 R33 to R36, R42): the chunks, the pin, and CANCEL.
-/

namespace Sys2Proof.Machine

open Sys2Proof

/-- The data of the chunk that starts at an offset: 240 bytes, or those that remain (R35). -/
def chunkData (value : Bytes) (off length : Nat) : Bytes :=
  (value.drop off).take (min Config.maxChunk (length - off))

/-- The chunk ends at the value's length, and so carries LAST (R35). -/
def chunkIsLast (off length : Nat) : Bool := decide (length - off ≤ Config.maxChunk)

/-- The chunk ready enters the reply queue when a slot is free that no pending notice claims. The LAST
one ends the stream and releases the pin; after any other the read of the next chunk is asked for at
once, whether or not a slot is free for it (R35, R36, R157; log 50). -/
def offerChunk (s : State) : State :=
  match s.engine.request, s.engine.stream with
  | some r, some st =>
    match st.chunk with
    | some data =>
      if slotFree s && s.notices.isEmpty then
        let last := chunkIsLast st.sent st.length
        let s₁ := enqueue
          (r.reply .ok (chunkPayload st.version st.length st.sent (decide (st.sent = 0)) last data)) s
        if last then releasePin st.loc.seg { s₁ with engine := s₁.engine.toIdle }
        else
          let next := { st with sent := st.sent + Config.maxChunk, chunk := none }
          ask (.chunkRead st.loc true) { s₁ with engine := { s₁.engine with stream := some next } }
      else s
    | none => s
  | _, _ => s

/-- The data of a chunk has been read: it is queued, or waits for a slot (R35). -/
def chunkReady (data : Bytes) (s : State) : State :=
  match s.engine.stream with
  | some st => offerChunk { s with engine := { s.engine with stream := some { st with chunk := some data } } }
  | none => s

/-- The first read's check failed: the pin is released, the removal sent, and CORRUPT queued (R34). -/
def streamCorrupt (st : Stream) (ns : Nat) (s : State) : State :=
  let s₁ := releasePin st.loc.seg { s with engine := { s.engine with stream := none } }
  endRequest .corrupt (le 4 st.version) (lostRemoval ns st.key st.version st.loc s₁)

/-- The first read of a stream completed (R34, R35). -/
def firstReadDone (ok : Bool) (loc : Loc) (s : State) : State :=
  match s.engine.request, s.engine.stream with
  | some r, some st =>
    match recordAt s loc with
    | some record =>
      if ok then chunkReady (chunkData record.value 0 st.length) s else streamCorrupt st r.ns s
    | none => streamCorrupt st r.ns s
  | _, _ => s

/-- The read of a later chunk completed; it is not checked again (R35). -/
def chunkReadDone (loc : Loc) (s : State) : State :=
  match s.engine.stream with
  | some st =>
    match recordAt s loc with
    | some record => chunkReady (chunkData record.value st.sent st.length) s
    | none => s
  | none => s

/-- CANCEL reaches a stream: no further chunk, the pin released, and one final reply (R42). -/
def cancelStream (st : Stream) (s : State) : State :=
  let s₁ := dropGetReads { s with engine := { s.engine with stream := none } }
  endRequest .cancelled
    (chunkPayload st.version st.length st.sent (decide (st.sent = 0)) true [])
    (releasePin st.loc.seg s₁)

/-- GET_FIRST_READ_DONE (R34). A read whose stream CANCEL has ended is discarded (R42). -/
def getFirstReadDoneEffect (ok : Bool) (s : State) : State :=
  match s.ctrl.cur with
  | some (.getFirstRead loc wanted) =>
    let s₁ := completeOp s
    if wanted then firstReadDone ok loc s₁ else s₁
  | _ => s

/-- CHUNK_READ_DONE (R35). -/
def chunkReadDoneEffect (s : State) : State :=
  match s.ctrl.cur with
  | some (.chunkRead loc wanted) =>
    let s₁ := completeOp s
    if wanted then chunkReadDone loc s₁ else s₁
  | _ => s

/-- GET_FIRST_READ_DONE. -/
def execGetFirstReadDone (ok : Bool) (s : State) : Host.Outcome State Fault Refusal :=
  .next (if running s then getFirstReadDoneEffect ok s else s)

/-- CHUNK_READ_DONE. -/
def execChunkReadDone (s : State) : Host.Outcome State Fault Refusal :=
  .next (if running s then chunkReadDoneEffect s else s)

end Sys2Proof.Machine
end

