-- ==== Sys2Proof/Machine/RecordRequests.lean ====
section
/-!
DEFINITION. The requests on records: PUT and DATA (spec/02 R20 to R29), DELETE (R31, R32), GET (R33),
STAT (R37) and LIST (R38, R39), as the engine handles a frame it has taken.
-/

namespace Sys2Proof.Machine

open Sys2Proof

/-- The frame becomes the current request, with the context as it stands (R1, R151, R153). -/
def startRequest (f : Frame) (s : State) : State :=
  let r : Request := { kind := f.kind, tag := f.tag, ns := s.engine.ns, mode := s.engine.mode }
  { s with engine := { s.engine with request := some r } }

/-- A malformed frame is refused BAD_REQUEST and nothing else changes (R151, R180). -/
def refuseForm (s : State) : State := endRequest .badRequest [] s

/-! ## Conditions and checks (R27, R28, R31) -/

/-- A PUT condition against the effective state (R27). -/
def conditionRefusal (c : Condition) (e : Effective) : Option (Status × Bytes) :=
  match c, e with
  | .always, _ => none
  | .ifAbsent, .live _ => some (.exists_, [])
  | .ifAbsent, .buried _ => none
  | .ifAbsent, .absent => none
  | .ifVersion w, .live v => if w = v then none else some (.versionMismatch, le 4 v)
  | .ifVersion w, .buried v => if w = v then none else some (.versionMismatch, le 4 v)
  | .ifVersion _, .absent => some (.notFound, [])

/-- In a group, the pending list already holds 32 operations (R28, R31, R97). -/
def groupFull (s : State) : Bool := inGroup s && decide (Config.groupOps ≤ s.group.list.length)

/-- The seven checks on a complete value, in order (R28). -/
def putRefusal (ns : Nat) (form : PutForm) (s : State) : Option (Status × Bytes) :=
  if s.log.device = .readOnly then some (.readOnly, [])
  else if s.group.state = .failed then some (.groupFailed, [])
  else if writeLocked s ns then some (.locked, [])
  else
    match conditionRefusal form.condition (effective s ns form.key) with
    | some refusal => some refusal
    | none =>
      if needsSlot s ns form.key ∧ freeSlots s = 0 then some (.dirFull, [])
      else if newKey s ns form.key ∧ limitOf s ns ≤ liveCount s.dir ns + pendingNew s ns then
        some (.limitReached, [])
      else if groupFull s then some (.groupFull, [])
      else none

/-- DIR_FULL, LIMIT_REACHED and GROUP_FULL turn an OPEN group FAILED (R28, R31, R98). -/
def refusalGroupEffect (status : Status) (s : State) : State :=
  match status with
  | .dirFull | .limitReached | .groupFull => failGroup s
  | _ => s

/-- The record of a PUT, DELETE, COMMIT, SYSTEM or FORMAT before its placement (R48). -/
def newRecord (kind : RecordKind) (ns : Nat) (tagged : Bool) (key value : Bytes) : Record :=
  { kind := kind, ns := ns, tagged := tagged, key := key, value := value, sn := 0 }

/-- The reservation a staged PUT of a new key takes on hand-over (R96). -/
def takeReservation (ns : Nat) (key : Bytes) (s : State) : State :=
  { s with group := { s.group with reserved := s.group.reserved ++ [(ns, key)] } }

/-- A PUT whose value is complete: the checks, then hand-over of its VALUE record (R28, R29, R94). -/
def runPut (ns : Nat) (form : PutForm) (value : Bytes) (s : State) : State :=
  match putRefusal ns form s with
  | some (status, payload) => endRequest status payload (refusalGroupEffect status s)
  | none =>
    let reserve := inGroup s && needsSlot s ns form.key
    let record := newRecord .value ns (decide (s.group.state = .opened)) form.key value
    handOver { purpose := .put reserve, record := record }
      (if reserve then takeReservation ns form.key s else s)

/-- PUT (R20, R21). -/
def handlePut (f : Frame) (s : State) : State :=
  let s₁ := startRequest f s
  match parsePut f.payload with
  | none => refuseForm s₁
  | some (form, inlineBytes) =>
    if inlineBytes.length = form.total then runPut s.engine.ns form inlineBytes s₁
    else
      let assembly : Assembly :=
        { form := form, buffer := inlineBytes, timerMs := Config.assemblyTimerMs }
      { s₁ with engine := { s₁.engine with state := .assembling, assembly := some assembly } }

/-! ## DATA (R22, R23, R26) -/

/-- DATA with no assembly open (R26). -/
def handleData (f : Frame) (s : State) : State :=
  let s₁ := startRequest f s
  match parseData f.payload with
  | none => refuseForm s₁
  | some _ => endRequest .badSequence [] s₁

/-- A DATA breaks the assembly: INCOMPLETE for the PUT, then the DATA's refusal (R23). -/
def breakByData (r : Request) (f : Frame) (status : Status) (s : State) : State :=
  decide_ [r.reply .incomplete [], { kind := replyKind kData, tag := f.tag, status := status, payload := [] }] s

/-- DATA while a PUT is assembling: consumed, which restarts the timer and may complete the value, or
breaking the assembly (R22, R23). -/
def assembleData (r : Request) (a : Assembly) (f : Frame) (s : State) : State :=
  match parseData f.payload with
  | none => breakByData r f .badRequest s
  | some (off, bytes) =>
    if f.tag = r.tag ∧ off = a.buffer.length ∧ bytes.length ≤ a.form.total - a.buffer.length then
      let buffer := a.buffer ++ bytes
      if buffer.length = a.form.total then
        runPut r.ns a.form buffer { s with engine := { s.engine with state := .busy, assembly := none } }
      else
        let next : Assembly := { a with buffer := buffer, timerMs := Config.assemblyTimerMs }
        { s with engine := { s.engine with assembly := some next } }
    else breakByData r f .badSequence s

/-! ## DELETE (R31, R32) -/

/-- The checks of a DELETE, in order (R31). -/
def deleteRefusal (ns : Nat) (expected : Nat) (key : Bytes) (s : State) : Option (Status × Bytes) :=
  if s.log.device = .readOnly then some (.readOnly, [])
  else if s.group.state = .failed then some (.groupFailed, [])
  else if writeLocked s ns then some (.locked, [])
  else
    match effective s ns key with
    | .absent => some (.notFound, [])
    | .buried _ => some (.notFound, [])
    | .live v =>
      if expected ≠ 0 ∧ expected ≠ v then some (.versionMismatch, le 4 v)
      else if groupFull s then some (.groupFull, [])
      else none

/-- DELETE (R31, R32). -/
def handleDelete (f : Frame) (s : State) : State :=
  let s₁ := startRequest f s
  match parseDelete f.payload with
  | none => refuseForm s₁
  | some (expected, key) =>
    match deleteRefusal s.engine.ns expected key s₁ with
    | some (status, payload) => endRequest status payload (refusalGroupEffect status s₁)
    | none =>
      let record :=
        newRecord .tombstone s.engine.ns (decide (s.group.state = .opened)) key []
      handOver { purpose := .delete, record := record } s₁

/-! ## GET, STAT, LIST (R33, R37 to R39) -/

/-- The stream of a GET whose lookup answered LIVE (R33). -/
def Entry.stream (e : Entry) : Stream :=
  { key := e.key, version := e.version, length := e.length, loc := e.loc, sent := 0, chunk := none }

/-- GET (R33): a LIVE key pins its segment and asks for the first read. -/
def handleGet (f : Frame) (s : State) : State :=
  let s₁ := startRequest f s
  match parseKey f.payload with
  | none => refuseForm s₁
  | some key =>
    match lookup s.dir s.engine.ns key with
    | none => endRequest .notFound [] s₁
    | some e =>
      if e.isLive then
        let s₂ := modSeg e.loc.seg (fun g => { g with pin := true }) s₁
        ask (.getFirstRead e.loc true)
          { s₂ with engine := { s₂.engine with state := .streaming, stream := some e.stream } }
      else endRequest .notFound [] s₁

/-- The STAT reply (R37). -/
def statPayload (e : Option Entry) : Bytes :=
  match e with
  | none => [0x00] ++ le 4 0 ++ le 2 0
  | some e => [if e.isLive then 0x01 else 0x02] ++ le 4 e.version ++ le 2 e.length

/-- STAT (R37). -/
def handleStat (f : Frame) (s : State) : State :=
  let s₁ := startRequest f s
  match parseKey f.payload with
  | none => refuseForm s₁
  | some key => endRequest .ok (statPayload (lookup s.dir s.engine.ns key)) s₁

/-- The LIVE entries of a namespace whose keys order strictly after the cursor; the empty cursor is
before every key (R38, R39). -/
def listAfter (dir : List Entry) (ns : Nat) (cursor : Bytes) : List Entry :=
  dir.filter fun e => decide (e.ns = ns) && e.isLive && keyLt cursor e.key

/-- The entries a LIST reply takes, for this count and room (R39). -/
def listTake (entries : List Entry) (count room : Nat) : List Entry :=
  match entries with
  | [] => []
  | e :: rest =>
    if 0 < count ∧ 7 + e.key.length ≤ room then
      e :: listTake rest (count - 1) (room - (7 + e.key.length))
    else []

/-- One entry of a LIST reply (R39, R181). -/
def listEntry (e : Entry) : Bytes :=
  [byteOf e.key.length] ++ e.key ++ le 4 e.version ++ le 2 e.length

/-- The LIST reply: the entries that fit, and MORE when a LIVE key follows the last of them (R39). -/
def listPayload (dir : List Entry) (ns count : Nat) (cursor : Bytes) : Bytes :=
  let all := listAfter dir ns cursor
  let taken := listTake all count (Config.maxPayload - 2)
  [byteOf taken.length, flag (decide (taken.length < all.length))] ++ taken.flatMap listEntry

/-- LIST (R38). -/
def handleList (f : Frame) (s : State) : State :=
  let s₁ := startRequest f s
  match parseList f.payload with
  | none => refuseForm s₁
  | some (count, cursor) => endRequest .ok (listPayload s.dir s.engine.ns count cursor) s₁

end Sys2Proof.Machine
end

