-- ==== Sys2Proof/Machine/GroupRequests.lean ====
section
/-!
DEFINITION. The requests of commit groups, BEGIN, COMMIT and DISCARD (spec/05 R93, R99, R102, R105),
and of the log, SPACE, TIDY and FORMAT (spec/03 R63, R64; spec/04 R71).
-/

namespace Sys2Proof.Machine

open Sys2Proof

/-- BEGIN (R93). -/
def handleBegin (f : Frame) (s : State) : State :=
  let s₁ := startRequest f s
  if f.payload ≠ [] then refuseForm s₁
  else if s.log.device = .readOnly then endRequest .readOnly [] s₁
  else if inGroup s then endRequest .groupOpen [] s₁
  else
    endRequest .ok (le 4 s.log.sn)
      { s₁ with group := { s₁.group with state := .opened, firstSn := some s.log.sn } }

/-- COMMIT (R99, R100). -/
def handleCommit (f : Frame) (s : State) : State :=
  let s₁ := startRequest f s
  if f.payload ≠ [] then refuseForm s₁
  else if s.log.device = .readOnly then endRequest .readOnly [] s₁
  else
    match s.group.state with
    | .noGroup => endRequest .noGroup [] s₁
    | .failed => endRequest .groupFailed [] s₁
    | .opened =>
      if s.group.list.isEmpty then
        endRequest .ok (le 4 0 ++ [byteOf 0]) { s₁ with group := Group.reset }
      else
        handOver
          { purpose := .commit
            record := newRecord .commit 0 false [] (le 4 (s.group.firstSn.getD 0)) } s₁

/-- The copy in hand belongs to the group and is not placed (R105). -/
def groupCopy (s : State) : Option Copy :=
  match s.reclaim.copy with
  | some c => if c.owner = .group ∧ c.placed = none then some c else none
  | none => none

/-- After a DISCARD the group's copy in hand is declined at once and not placed: its claim is
withdrawn, its grant abandoned, and the walk goes on; while its read is outstanding the result will be
dropped (R105; log 24). -/
def declineGroupCopy (c : Copy) (s : State) : State :=
  if c.buffer = none then
    { s with reclaim := { s.reclaim with copy := some { c with dropped := true } } }
  else
    let grant :=
      match s.log.grant with
      | some g => if g.unplaced .reclaim then g.giveUp else some g
      | none => none
    walkStep { s with log := { s.log with grant := grant, copyWaits := false }
                      reclaim := { s.reclaim with copy := none } }

/-- DISCARD (R102, R105). -/
def handleDiscard (f : Frame) (s : State) : State :=
  let s₁ := startRequest f s
  if f.payload ≠ [] then refuseForm s₁
  else if inGroup s then
    let s₂ := endRequest .ok [byteOf s.group.list.length] (dropGroup s₁)
    match groupCopy s with
    | some c => declineGroupCopy c s₂
    | none => s₂
  else endRequest .noGroup [] s₁

/-- SPACE (R63). -/
def handleSpace (f : Frame) (s : State) : State :=
  let s₁ := startRequest f s
  if f.payload ≠ [] then refuseForm s₁ else endRequest .ok (spacePayload s) s₁

/-- TIDY (R71): in READ_ONLY it is refused with its totals of 0 (R181); otherwise passes are asked for;
with the unit IDLE and no FILLED segment it ends at once (R88). -/
def handleTidy (f : Frame) (s : State) : State :=
  let s₁ := startRequest f s
  match parseTidy f.payload with
  | none => refuseForm s₁
  | some n =>
    if s.log.device = .readOnly then endRequest .readOnly (tidyTotals 0 0) s₁
    else
      let s₂ := { s₁ with
        engine := { s₁.engine with state := .busy }
        reclaim := { s₁.reclaim with
          tidyRemaining := n, tidyDone := 0, tidyFreed := 0, tidyCancelled := false } }
      if s₂.reclaim.state = .idle ∧ !anyFilled s₂ then endTidy s₂ else weighPass s₂

/-- The checks of a FORMAT, in order (R64). -/
def formatRefusal (s : State) : Option Status :=
  if s.log.device = .readOnly then some .readOnly
  else if inGroup s then some .groupOpen
  else if !s.prot.gateOpen then some .denied
  else if formatBar s then some .denied
  else if writeLockedMask s ≠ 0 then some .locked
  else none

/-- FORMAT (R64). -/
def handleFormat (f : Frame) (s : State) : State :=
  let s₁ := startRequest f s
  if f.payload ≠ [] then refuseForm s₁
  else
    match formatRefusal s with
    | some status => endRequest status [] s₁
    | none =>
      handOver { purpose := .formatMarker, record := newRecord .format 0 false [] [] } s₁

end Sys2Proof.Machine
end

