-- ==== Sys2Proof/Machine/ProtectionRequests.lean ====
section
/-!
DEFINITION. The protection requests (spec/07 R134 to R145), SET_LIMIT (spec/01 R10), IDENT and SELECT
(spec/08 R154, R163).
-/

namespace Sys2Proof.Machine

open Sys2Proof

/-- The record of a settings write (R129). -/
def settingRecord (id : Byte) (value : Bytes) : Record := newRecord .system 0 false [id] value

/-- A settings write is handed to the log manager (R129). -/
def writeSetting (id : Byte) (value : Bytes) (s : State) : State :=
  handOver { purpose := .setting, record := settingRecord id value } s

/-- The three checks the stored-setting requests begin with, in order (spec/07, Checks of the
protection requests). -/
def settingRefusal (s : State) : Option Status :=
  if s.log.device = .readOnly then some .readOnly
  else if inGroup s then some .groupOpen
  else if !s.prot.gateOpen then some .denied
  else none

/-- A stored-setting request after its form check: the three checks, then its own refusal, then the
write. -/
def settingRequest (own : Bool) (id : Byte) (value : Bytes) (s : State) : State :=
  match settingRefusal s with
  | some status => endRequest status [] s
  | none => if own then endRequest .denied [] s else writeSetting id value s

/-- SET_LIMIT (R10). -/
def handleSetLimit (f : Frame) (s : State) : State :=
  let s₁ := startRequest f s
  match parseSetLimit f.payload with
  | none => refuseForm s₁
  | some (n, limit) => settingRequest false (idLimit n) (le 2 limit) s₁

/-- A mask with every flag of another set, or cleared. -/
def applyMask (flags mask : Byte) (set : Bool) : Byte := if set then flags ||| mask else flags &&& ~~~mask

/-- LOCK (R134). -/
def handleLock (f : Frame) (s : State) : State :=
  let s₁ := startRequest f s
  match parseMaskAction f.payload with
  | none => refuseForm s₁
  | some (mask, set) =>
    if inGroup s then endRequest .groupOpen [] s₁
    else if mask &&& s.prot.lockdowns ≠ 0 then endRequest .denied [] s₁
    else
      let locks := applyMask s.prot.sessionLocks mask set
      let s₂ := { s₁ with prot := { s₁.prot with sessionLocks := locks } }
      endRequest .ok [locks, writeLockedMask s₂] s₂

/-- LOCKDOWN (R135). -/
def handleLockdown (f : Frame) (s : State) : State :=
  let s₁ := startRequest f s
  match parseMask f.payload with
  | none => refuseForm s₁
  | some mask =>
    let downs := s.prot.lockdowns ||| mask
    endRequest .ok [downs] { s₁ with prot := { s₁.prot with lockdowns := downs } }

/-- PERSIST (R136). -/
def handlePersist (f : Frame) (s : State) : State :=
  let s₁ := startRequest f s
  match parseMaskAction f.payload with
  | none => refuseForm s₁
  | some (mask, set) =>
    settingRequest (locksFinal s) idLocks [applyMask (persistentLocks s) mask set] s₁

/-- GATE_CLOSE (R138). -/
def handleGateClose (f : Frame) (s : State) : State :=
  let s₁ := startRequest f s
  if f.payload ≠ [] then refuseForm s₁
  else endRequest .ok [flag false] { s₁ with prot := { s₁.prot with gateOpen := false } }

/-- The payload of every UNLOCK reply: gate and counter (R143, R181). -/
def unlockPayload (s : State) : Bytes := [flag s.prot.gateOpen, byteOf s.prot.unlockFails]

/-- UNLOCK (R143). -/
def handleUnlock (f : Frame) (s : State) : State :=
  let s₁ := startRequest f s
  match parsePassphrase f.payload with
  | none => endRequest .badRequest (unlockPayload s) s₁
  | some offered =>
    if policyOf s.prot.settings ≠ .passphrase then endRequest .denied (unlockPayload s) s₁
    else if s.prot.unlockFails = Config.unlockLimit then
      endRequest .lockedOut (unlockPayload s) s₁
    else
      match passphraseOf s with
      | none => endRequest .denied (unlockPayload s) s₁
      | some stored =>
        if offered = stored then
          let s₂ := { s₁ with prot := { s₁.prot with gateOpen := true, unlockFails := 0 } }
          endRequest .ok (unlockPayload s₂) s₂
        else
          let fails := s₁.prot.unlockFails + 1
          let s₂ := { s₁ with prot := { s₁.prot with unlockFails := fails } }
          endRequest .denied (unlockPayload s₂) s₂

/-- SET_PASSPHRASE (R140). -/
def handleSetPassphrase (f : Frame) (s : State) : State :=
  let s₁ := startRequest f s
  match parsePassphrase f.payload with
  | none => refuseForm s₁
  | some bytes =>
    settingRequest (decide (policyOf s.prot.settings ≠ .unset)) idPassphrase bytes s₁

/-- SET_POLICY (R141). -/
def handleSetPolicy (f : Frame) (s : State) : State :=
  let s₁ := startRequest f s
  match parsePolicy f.payload with
  | none => refuseForm s₁
  | some p =>
    settingRequest
      (decide (policyOf s.prot.settings ≠ .unset ∨ (p = .passphrase ∧ passphraseOf s = none)))
      idPolicy [p.code] s₁

/-- FINALIZE (R144). -/
def handleFinalize (f : Frame) (s : State) : State :=
  let s₁ := startRequest f s
  match parseFinal f.payload with
  | none => refuseForm s₁
  | some switches => settingRequest false idFinal [finalSwitches s ||| switches] s₁

/-- PROTECT_STATUS (R145). -/
def handleProtectStatus (f : Frame) (s : State) : State :=
  let s₁ := startRequest f s
  if f.payload ≠ [] then refuseForm s₁ else endRequest .ok (protectPayload s) s₁

/-- IDENT (R163). -/
def handleIdent (f : Frame) (s : State) : State :=
  let s₁ := startRequest f s
  if f.payload ≠ [] then refuseForm s₁ else endRequest .ok identPayload s₁

/-- SELECT (R154): the whole context at once, and its own OK reply judged by the new mode. -/
def handleSelect (f : Frame) (s : State) : State :=
  match parseSelect f.payload with
  | none => refuseForm (startRequest f s)
  | some (n, mode, mark) =>
    let s₁ := { s with engine := { s.engine with ns := n, mode := mode, watermark := mark } }
    endRequest .ok [byteOf n, mode.code, byteOf mark] (startRequest f s₁)

/-- The OK reply of a settings write, by the request that made it (R10, R136, R140, R141, R144, R181). -/
def settingReply (kind : Byte) (record : Record) (s : State) : Bytes :=
  if kind = kSetLimit then
    let n := ((record.key.headD 0).toNat - 0x10)
    [byteOf n] ++ record.value ++ le 2 (liveCount s.dir n)
  else if kind = kPersist then [persistentLocks s, writeLockedMask s] ++ le 4 record.sn
  else if kind = kSetPassphrase then le 4 record.sn ++ [flag (passphraseOf s).isSome]
  else if kind = kSetPolicy then [(policyOf s.prot.settings).code] ++ le 4 record.sn
  else [finalSwitches s] ++ le 4 record.sn

end Sys2Proof.Machine
end

