-- ==== Sys2Proof/Machine/Engine.lean ====
section
/-!
DEFINITION. The engine's take of the head of the inbound queue (spec/08 R150, R151, R164), the frame
that breaks an assembly (spec/02 R24), the assembly timer (R25), and what a freed reply slot sets going
(R157).
-/

namespace Sys2Proof.Machine

open Sys2Proof

/-- RESET (R164): a payload refuses it; otherwise the whole part resets. -/
def handleReset (f : Frame) (s : State) : State :=
  if f.payload ≠ [] then refuseForm (startRequest f s) else resetPart .resetRequest s

/-- A frame of no request kind (R151): BAD_REQUEST with the kind received. -/
def handleUnknown (f : Frame) (s : State) : State :=
  decide_ [{ kind := unknownReplyKind, tag := f.tag, status := .badRequest, payload := [f.kind] }]
    (startRequest f s)

/-- A frame as the engine handles it from IDLE (R151). -/
def handleFrame (f : Frame) (s : State) : State :=
  if f.kind = kIdent then handleIdent f s
  else if f.kind = kSelect then handleSelect f s
  else if f.kind = kSpace then handleSpace f s
  else if f.kind = kPut then handlePut f s
  else if f.kind = kData then handleData f s
  else if f.kind = kGet then handleGet f s
  else if f.kind = kStat then handleStat f s
  else if f.kind = kDelete then handleDelete f s
  else if f.kind = kList then handleList f s
  else if f.kind = kBegin then handleBegin f s
  else if f.kind = kCommit then handleCommit f s
  else if f.kind = kDiscard then handleDiscard f s
  else if f.kind = kTidy then handleTidy f s
  else if f.kind = kFormat then handleFormat f s
  else if f.kind = kSetLimit then handleSetLimit f s
  else if f.kind = kLock then handleLock f s
  else if f.kind = kLockdown then handleLockdown f s
  else if f.kind = kPersist then handlePersist f s
  else if f.kind = kGateClose then handleGateClose f s
  else if f.kind = kUnlock then handleUnlock f s
  else if f.kind = kSetPassphrase then handleSetPassphrase f s
  else if f.kind = kSetPolicy then handleSetPolicy f s
  else if f.kind = kFinalize then handleFinalize f s
  else if f.kind = kProtectStatus then handleProtectStatus f s
  else if f.kind = kReset then handleReset f s
  else handleUnknown f s

/-- The frame that broke an assembly is handled as if just taken in IDLE, once the INCOMPLETE reply
has entered the reply queue (R24). -/
def continueBreaking (s : State) : State :=
  match s.engine.breaking with
  | some f =>
    if s.engine.decided.isEmpty then handleFrame f { s with engine := s.engine.toIdle } else s
  | none => s

/-- A frame other than DATA breaks the assembly of this PUT, which stays the current request until its
INCOMPLETE reply has entered the reply queue (R24; log 45). -/
def breakAssembly (r : Request) (f : Frame) (s : State) : State :=
  continueBreaking
    (decide_ [r.reply .incomplete []] { s with engine := { s.engine with breaking := some f } })

/-- A frame taken while a PUT assembles (R22 to R24). -/
def takeAssembling (f : Frame) (s : State) : State :=
  match s.engine.request, s.engine.assembly with
  | some r, some a => if f.kind = kData then assembleData r a f s else breakAssembly r f s
  | _, _ => s

/-- The engine takes the head of the inbound queue (R150). -/
def mayTake (s : State) : Bool :=
  match s.engine.state with
  | .idle => slotFree s
  | .assembling => true
  | .busy | .waitingSpace | .streaming | .replyWait => false

/-- A frame just removed from the inbound queue (R150). -/
def takeFrame (f : Frame) (s : State) : State :=
  if s.engine.state = .assembling then takeAssembling f s else handleFrame f s

/-- The take of the head of the inbound queue, when the head is a frame of this sort and the engine
takes it; otherwise nothing happens (R150; log 2). -/
def takeHead (sort : Frame → Bool) (s : State) : State :=
  match s.inbound with
  | [] => s
  | f :: rest =>
    if running s && decide (s.log.device ≠ .mounting) && sort f && mayTake s then
      takeFrame f { s with inbound := rest }
    else s

/-- The take of a frame of this kind. -/
def takeKind (kind : Byte) (s : State) : State := takeHead (fun f => decide (f.kind = kind)) s

/-! ## What a freed reply slot sets going (R152, R157, R171) -/

/-- After an accepted TAKE: a pending notice enters first, else the waiting reply or chunk; when the
last INCOMPLETE reply has entered, the breaking frame is handled (R24, R157). -/
def slotFreed (s : State) : State :=
  let s₁ := drainNotices s
  match s₁.engine.state with
  | .replyWait => continueBreaking (settleReplies (moveDecided s₁.engine.decided s₁))
  | .streaming => offerChunk s₁
  | .idle | .assembling | .busy | .waitingSpace => s₁

/-! ## The commands -/

/-- IDENT. -/
def execIdent (s : State) : Host.Outcome State Fault Refusal := .next (takeKind kIdent s)

/-- SELECT. -/
def execSelect (s : State) : Host.Outcome State Fault Refusal := .next (takeKind kSelect s)

/-- SPACE. -/
def execSpace (s : State) : Host.Outcome State Fault Refusal := .next (takeKind kSpace s)

/-- PUT. -/
def execPut (s : State) : Host.Outcome State Fault Refusal := .next (takeKind kPut s)

/-- DATA. -/
def execData (s : State) : Host.Outcome State Fault Refusal := .next (takeKind kData s)

/-- GET. -/
def execGet (s : State) : Host.Outcome State Fault Refusal := .next (takeKind kGet s)

/-- STAT. -/
def execStat (s : State) : Host.Outcome State Fault Refusal := .next (takeKind kStat s)

/-- DELETE. -/
def execDelete (s : State) : Host.Outcome State Fault Refusal := .next (takeKind kDelete s)

/-- LIST. -/
def execList (s : State) : Host.Outcome State Fault Refusal := .next (takeKind kList s)

/-- BEGIN. -/
def execBegin (s : State) : Host.Outcome State Fault Refusal := .next (takeKind kBegin s)

/-- COMMIT. -/
def execCommit (s : State) : Host.Outcome State Fault Refusal := .next (takeKind kCommit s)

/-- DISCARD. -/
def execDiscard (s : State) : Host.Outcome State Fault Refusal := .next (takeKind kDiscard s)

/-- TIDY. -/
def execTidy (s : State) : Host.Outcome State Fault Refusal := .next (takeKind kTidy s)

/-- FORMAT. -/
def execFormat (s : State) : Host.Outcome State Fault Refusal := .next (takeKind kFormat s)

/-- SET_LIMIT. -/
def execSetLimit (s : State) : Host.Outcome State Fault Refusal := .next (takeKind kSetLimit s)

/-- LOCK. -/
def execLock (s : State) : Host.Outcome State Fault Refusal := .next (takeKind kLock s)

/-- LOCKDOWN. -/
def execLockdown (s : State) : Host.Outcome State Fault Refusal := .next (takeKind kLockdown s)

/-- PERSIST. -/
def execPersist (s : State) : Host.Outcome State Fault Refusal := .next (takeKind kPersist s)

/-- GATE_CLOSE. -/
def execGateClose (s : State) : Host.Outcome State Fault Refusal := .next (takeKind kGateClose s)

/-- UNLOCK. -/
def execUnlock (s : State) : Host.Outcome State Fault Refusal := .next (takeKind kUnlock s)

/-- SET_PASSPHRASE. -/
def execSetPassphrase (s : State) : Host.Outcome State Fault Refusal :=
  .next (takeKind kSetPassphrase s)

/-- SET_POLICY. -/
def execSetPolicy (s : State) : Host.Outcome State Fault Refusal := .next (takeKind kSetPolicy s)

/-- FINALIZE. -/
def execFinalize (s : State) : Host.Outcome State Fault Refusal := .next (takeKind kFinalize s)

/-- PROTECT_STATUS. -/
def execProtectStatus (s : State) : Host.Outcome State Fault Refusal :=
  .next (takeKind kProtectStatus s)

/-- RESET. -/
def execReset (s : State) : Host.Outcome State Fault Refusal := .next (takeKind kReset s)

/-- UNKNOWN_KIND. -/
def execUnknownKind (s : State) : Host.Outcome State Fault Refusal :=
  .next (takeHead (fun f => !requestKinds.contains f.kind) s)

/-- ASSEMBLY_TIMER_EXPIRY (R25). -/
def timerExpired (s : State) : State :=
  if running s && decide (s.engine.state = .assembling) then endRequest .incomplete [] s else s

/-- ASSEMBLY_TIMER_EXPIRY. -/
def execAssemblyTimerExpiry (s : State) : Host.Outcome State Fault Refusal := .next (timerExpired s)

end Sys2Proof.Machine
end

