-- ==== Sys2Proof/WellFormed.lean ====
section
/-!
DEFINITION. Which commands stand for an event the link can show: the sizes and values a whole or a
cut transaction has (R167, R168, R169) and the places a mount read has (R110, R112).
-/

namespace Sys2Proof

/-- The five operation bytes (spec/10, Link code values). -/
def linkOperations : List Byte := [0xA1, 0xA2, 0xA3, 0xA4, 0xA5]

/-- A transaction with these bytes received (operation byte first) has not completed: SEND before
its last CRC byte, TAKE and CANCEL before their byte, FETCH and POLL before the operation byte
(R167). -/
def incompleteTransaction (received : Bytes) : Bool :=
  match received with
  | [] => true
  | [op] => op == 0xA1 || op == 0xA3 || op == 0xA5
  | op :: _kind :: rest =>
    op == 0xA1 &&
      match rest with
      | _tag :: len :: more => decide (len.toNat ≤ Config.maxPayload ∧ more.length < len.toNat + 2)
      | _ => true

/-- The operands are ones the event can have. -/
def Instr.wellFormed (i : Instr) : Bool :=
  match i with
  | .send _ _ payload _ => decide (payload.length ≤ Config.maxPayload)
  | .unknownOperation op => !linkOperations.contains op
  | .transactionCut received _ => incompleteTransaction received
  | .sendBadLength _ _ length => decide (Config.maxPayload < length.toNat)
  | .mountReadDone bad => bad.all fun p => decide (p < Config.segmentBytes)
  | .fetch | .take _ | .poll | .cancel _ | .powerOn | .rstAsserted _ | .rstReleased | .ident
  | .select | .space | .put | .data | .get | .stat | .delete | .list | .begin | .commit
  | .discard | .tidy | .format | .setLimit | .lock | .lockdown | .persist | .gateClose | .unlock
  | .setPassphrase | .setPolicy | .finalize | .protectStatus | .reset | .unknownKind
  | .assemblyTimerExpiry | .recordProgramDone _ | .openedMarkDone _ | .filledMarkDone _
  | .reclaimMarkDone _ | .eraseMarkDone _ | .eraseDone _ | .erasedMarkDone _ | .retiredMarkDone _
  | .getFirstReadDone _ | .chunkReadDone | .copyReadDone _ | .mountFilledMarkDone _
  | .mountEraseDone _ | .mountErasedMarkDone _ | .mountRetiredMarkDone _
  | .mountOpenedMarkDone _ | .mountEnd | .powerLoss | .selReleased => true

end Sys2Proof
end

