-- ==== Sys2Proof/Machine/Link.lean ====
section
/-!
DEFINITION. The message link (spec/09): SEND, FETCH, TAKE, POLL and CANCEL with their verdicts, the
transactions that do not complete, and the release of SEL. A command is a whole transaction up to its
completion: SEL is asserted, the host's bytes are received, the answer is decided and driven; SEL stays
asserted until SEL_RELEASED (log 12). A transaction may also stand open with part of those bytes
received (log 14).
-/

namespace Sys2Proof.Machine

open Sys2Proof

/-- The host's bytes of the transaction in progress that the port holds, the operation byte first
(R176). -/
def Port.hostBytes (p : Port) : Bytes := p.operation.toList ++ p.collected

/-- The port takes these bytes of a transaction: power and RST allow it, and SEL has been released since
the last one, or a transaction stands open that these bytes go on with (R166, R176, R177). -/
def linkReady (bytes : Bytes) (s : State) : Bool :=
  running s &&
    (decide (s.port.phase = .idle) ||
      (decide (s.port.phase = .receiving) && s.port.hostBytes.isPrefixOf bytes))

/-- The port takes no transaction. Without power or while RST is asserted it ignores SEL, whose level
stands all the same when that ends (R176; log 14). -/
def selIgnored (s : State) : State := if running s then s else { s with sel := true }

/-- A transaction of these host bytes has this effect where the port takes it. -/
def transaction (bytes : Bytes) (effect : State → State) (s : State) : State :=
  if linkReady bytes s then effect s else selIgnored s

/-- A transaction completes with this answer: the operation byte and `received` bytes in all have been
received, of which `collected` are a SEND's frame (R167, R176). -/
def answerWith (op : Byte) (received : Nat) (collected answer : Bytes) (s : State) : State :=
  { s with sel := true
           port := { phase := .answering, operation := some op, received := received
                     collected := collected, answer := answer } }

/-! ## SEND (R148, R169) -/

/-- The verdict of a SEND whose length byte is in range (R169). -/
def sendVerdict (kind tag : Byte) (payload : Bytes) (crc : BitVec 16) (s : State) : Byte :=
  if crc ≠ crc16 (sentBody kind tag payload) then verdictBadCheck
  else if Config.inboundSlots ≤ s.inbound.length then verdictFull
  else verdictAccepted

/-- A SEND found at its length byte to state more than 248: BAD_LENGTH is driven until SEL is released
(R169). -/
def tooLong (kind tag length : Byte) (s : State) : State :=
  { s with sel := true
           port := { phase := .tooLong, operation := some opSend, received := 4
                     collected := [kind, tag, length], answer := [] } }

/-- A SEND frame as the host sends it (R169). -/
def sentFrame (kind tag : Byte) (payload : Bytes) (crc : BitVec 16) : Bytes :=
  sentBody kind tag payload ++ [crc.extractLsb' 8 8, crc.extractLsb' 0 8]

/-- SEND completes (R169). A payload above 248 bytes is the frame of SEND_BAD_LENGTH (log 40). -/
def sendEffect (kind tag : Byte) (payload : Bytes) (crc : BitVec 16) (s : State) : State :=
  if Config.maxPayload < payload.length then tooLong kind tag (byteOf payload.length) s
  else
    let verdict := sendVerdict kind tag payload crc s
    let frame := sentFrame kind tag payload crc
    let s₁ := answerWith opSend (1 + frame.length) frame [verdict] s
    if verdict = verdictAccepted then
      { s₁ with inbound := s₁.inbound ++ [{ kind := kind, tag := tag, payload := payload }] }
    else s₁

/-- SEND. -/
def execSend (kind tag : Byte) (payload : Bytes) (crc : BitVec 16) (s : State) :
    Host.Outcome State Fault Refusal :=
  .next (transaction (opSend :: sentFrame kind tag payload crc) (sendEffect kind tag payload crc) s)

/-- SEND_BAD_LENGTH. -/
def execSendBadLength (kind tag length : Byte) (s : State) : Host.Outcome State Fault Refusal :=
  .next (transaction [opSend, kind, tag, length] (tooLong kind tag length) s)

/-! ## FETCH, TAKE, POLL (R170 to R172) -/

/-- What FETCH drives: the head frame, or EMPTY (R170). -/
def fetchAnswer (s : State) : Bytes :=
  match s.replies with
  | [] => [verdictEmpty]
  | r :: _ => r.bytes

/-- FETCH. -/
def execFetch (s : State) : Host.Outcome State Fault Refusal :=
  .next (transaction [opFetch] (answerWith opFetch 1 [] (fetchAnswer s)) s)

/-- TAKE completes (R171): the head leaves when its number is named, and the freed slot is taken at
once under the reply-slot arbiter. -/
def takeEffect (number : Byte) (s : State) : State :=
  match s.replies with
  | [] => answerWith opTake 2 [] [verdictEmpty] s
  | r :: rest =>
    if r.seq = number then
      slotFreed { answerWith opTake 2 [] [verdictAccepted] s with replies := rest }
    else answerWith opTake 2 [] [verdictStale] s

/-- TAKE. -/
def execTake (number : Byte) (s : State) : Host.Outcome State Fault Refusal :=
  .next (transaction [opTake, number] (takeEffect number) s)

/-- POLL. -/
def execPoll (s : State) : Host.Outcome State Fault Refusal :=
  .next (transaction [opPoll] (answerWith opPoll 1 [] (statusRecord s)) s)

/-! ## CANCEL (R161, R162, R173) -/

/-- A record in hand that CANCEL abandons: a first attempt that is not placed, and no settings rewrite
after a FORMAT marker (R41, R65, R162). -/
def jobCancellable (j : Job) : Bool :=
  match j.purpose with
  | .formatRewrite .. => false
  | .put _ | .delete | .commit | .setting | .formatMarker => true

/-- CANCEL reaches a request whose record may not be placed yet (R41, R53, R57, R100, R129). -/
def cancelJob (j : Job) (s : State) : State :=
  if !jobCancellable j then s
  else
    match s.log.grant with
    | some g =>
      if decide (g.claimant = .engine) && !g.abandoned then
        if g.unplaced .engine && !g.retry then
          endJob .cancelled { s with log := { s.log with grant := g.giveUp } }
        else s
      else endJob .cancelled s
    | none => endJob .cancelled s

/-- CANCEL reaches the current request (R162). In REPLY_WAIT that is the decided one, also while the frame
that broke its assembly waits behind it (R149; log 45). -/
def cancelRequest (s : State) : State :=
  match s.engine.state with
  | .assembling => endRequest .cancelled [] s
  | .streaming =>
    match s.engine.stream with
    | some st => cancelStream st s
    | none => s
  | .busy | .waitingSpace =>
    if tidyRunning s then
      { s with reclaim := { s.reclaim with tidyRemaining := 0, tidyCancelled := true } }
    else
      match s.engine.job with
      | some j => cancelJob j s
      | none => s
  | .idle | .replyWait => s

/-- CANCEL completes (R161, R162, R173): queued frames with the tag go, counted, and a current request
with the tag is reached. A frame that waits behind an INCOMPLETE reply is neither (log 45). -/
def cancelEffect (tag : Byte) (s : State) : State :=
  let kept := s.inbound.filter fun f => !decide (f.tag = tag)
  let count := byteOf (s.inbound.length - kept.length)
  let s₁ := { answerWith opCancel 2 [] [count, verdictAccepted] s with inbound := kept }
  match s.engine.request with
  | some r => if r.tag = tag then cancelRequest s₁ else s₁
  | none => s₁

/-- CANCEL. -/
def execCancel (tag : Byte) (s : State) : Host.Outcome State Fault Refusal :=
  .next (transaction [opCancel, tag] (cancelEffect tag) s)

/-! ## Transactions without completion, and SEL (R166 to R168, R176) -/

/-- An unknown operation byte: 0xFF is driven until SEL is released (R168). -/
def ignoreTransaction (operation : Byte) (s : State) : State :=
  { s with sel := true
           port := { phase := .ignoring, operation := some operation, received := 1
                     collected := [], answer := [] } }

/-- UNKNOWN_OPERATION. -/
def execUnknownOperation (operation : Byte) (s : State) : Host.Outcome State Fault Refusal :=
  .next (transaction [operation] (ignoreTransaction operation) s)

/-- SEL is released: the transaction ends and SDO is high-impedance (R166, R176). -/
def selRelease (s : State) : State := { s with sel := false, port := Port.reset }

/-- SEL is asserted and these bytes, too few to complete, have been received: the port holds them, and
nothing else in the part has changed (R166, R167, R176). -/
def receive (received : Bytes) (s : State) : State :=
  { s with sel := true
           port := { phase := .receiving, operation := received.head?, received := received.length
                     collected := received.tail, answer := [] } }

/-- TRANSACTION_CUT: SEL was asserted and released before the last host byte, so that nothing in the
part has changed and SEL stands released; or the transaction stands open (R167, R176; log 14). -/
def execTransactionCut (received : Bytes) (s : State) (open_ : Bool := false) :
    Host.Outcome State Fault Refusal :=
  .next
    (if open_ then
      transaction received (fun s => if incompleteTransaction received then receive received s else s) s
    else if linkReady received s then selRelease s
    else s)

/-- SEL_RELEASED. -/
def execSelReleased (s : State) : Host.Outcome State Fault Refusal := .next (selRelease s)

end Sys2Proof.Machine
end

