-- ==== Sys2Proof/Machine/Completions.lean ====
section
/-!
DEFINITION. The completions of the array operations outside mount (spec/03 R52, R53, R59, R60;
spec/04 R73, R75, R81, R83, R84): each is taken when that operation is the one in progress. The bytes
it wrote stand in the array, the controller goes on to its next operation, and the requester acts
(log 16).
-/

namespace Sys2Proof.Machine

open Sys2Proof

/-! ## The claims that follow a record's program (R52) -/

/-- The pending-list entry of a staged record (R94). -/
def stagedEntry (r : Record) (loc : Loc) : Pending :=
  { isPut := decide (r.kind = .value), ns := r.ns, key := r.key, sn := r.sn, loc := loc
    length := r.value.length, standing := .current }

/-- The entry a settings write brings (R129). -/
def writtenSetting (r : Record) (loc : Loc) : Setting :=
  { id := r.key.headD 0, value := r.value, sn := r.sn, loc := loc }

/-- The claim of the engine's record (R12 to R14, R18, R94, R129). A COMMIT marker whose group has
lost a record takes no commit application (log 21); one whose group is FAILED for another cause takes it
(log 47). -/
def engineClaim (j : Job) (r : Record) (loc : Loc) (s : State) : State :=
  match j.purpose with
  | .put _ =>
    if r.tagged then stage (stagedEntry r loc) s
    else putCompletion r.ns r.key r.sn r.value.length loc false s
  | .delete =>
    if r.tagged then stage (stagedEntry r loc) s else deleteCompletion r.ns r.key r.sn loc false s
  | .commit => if hasLost s then s else commitApplication s
  | .setting => settingsWrite (writtenSetting r loc) s
  | .formatMarker => formatClearing s
  | .formatRewrite .. => settingsWrite (writtenSetting r loc) s

/-- The reply that follows the claim; `before` is the state before it. A FORMAT with rewrites still to
make has no reply yet (R29, R32, R65, R100, R129). -/
def engineReply (j : Job) (r : Record) (before s : State) : State :=
  match j.purpose with
  | .put _ | .delete => endRequest .ok (le 4 r.sn) s
  | .commit =>
    if hasLost before then endJob .groupFailed s
    else endRequest .ok (le 4 r.sn ++ [byteOf before.group.list.length]) s
  | .setting =>
    match s.engine.request with
    | some q => endRequest .ok (settingReply q.kind r s) s
    | none => s
  | .formatMarker =>
    if s.prot.settings.isEmpty then endRequest .ok (le 4 r.sn ++ [byteOf 0]) s else s
  | .formatRewrite marker done rest =>
    if rest.isEmpty then endRequest .ok (le 4 marker ++ [byteOf (done + 1)]) s else s

/-- The next settings rewrite of a FORMAT is handed to the log manager (R65). -/
def nextRewrite (marker done : Nat) (rest : List Byte) (s : State) : State :=
  match rest with
  | [] => s
  | id :: more =>
    match settingOf s.prot.settings id with
    | some t =>
      handOver { purpose := .formatRewrite marker done more, record := settingRecord id t.value } s
    | none => nextRewrite marker done more s

/-- What the engine does once the grant of its record has ended (R65). -/
def engineNext (j : Job) (r : Record) (s : State) : State :=
  match j.purpose with
  | .formatMarker => nextRewrite r.sn 0 (s.prot.settings.map Setting.id) s
  | .formatRewrite marker done rest => nextRewrite marker (done + 1) rest s
  | .put _ | .delete | .commit | .setting => s

/-- The grant ends (R55). -/
def endGrant (s : State) : State := { s with log := { s.log with grant := none } }

/-- The engine's record has been programmed: the claim, the reply, the end of the grant, the thresholds
(R52, R70), the next grant, and a FORMAT's next rewrite (log 26). -/
def engineProgrammed (g : Grant) (loc : Loc) (s : State) : State :=
  match s.engine.job with
  | some j =>
    let s₁ := engineReply j g.record s (engineClaim j g.record loc s)
    engineNext j g.record (grantNext (backgroundEvent (endGrant s₁)))
  | none => grantNext (backgroundEvent (endGrant s))

/-- The copy has been programmed: its relocation, the end of the grant, the thresholds, the next grant,
and the walk (R52, R70, R77; log 26). -/
def copyProgrammed (loc : Loc) (s : State) : State :=
  match s.reclaim.copy with
  | some c =>
    let s₁ := relocate c loc s
    let s₂ := { s₁ with reclaim := { s₁.reclaim with copy := none } }
    walkStep (grantNext (backgroundEvent (endGrant s₂)))
  | none => grantNext (backgroundEvent (endGrant s))

/-- The retry of a record has failed to program (R60). -/
def attemptFailed (g : Grant) (s : State) : State :=
  match g.claimant with
  | .engine => endJob .mediaFault (endGrant s)
  | .reclaim =>
    if s.log.device = .ready then
      let waiting : Grant := { g with stage := .choosing }
      enterReadOnly .copyFailed { s with log := { s.log with grant := some waiting } }
    else stopPass (endGrant s)

/-- A record's program failed: the head is suspect, and the record is placed again in a new head, or
its attempt has ended in failure (R59, R60). -/
def programFailed (g : Grant) (loc : Loc) (s : State) : State :=
  let s₁ := markSuspect loc.seg s
  grantNext (if g.retry then attemptFailed g s₁ else attemptRetry g s₁)

/-- RECORD_PROGRAM_DONE (R52, R59). What a failed program leaves is free: torn or whole (log 8). That
this holds of a COMMIT marker too, so that a marker whose program failed may stand whole and a later
mount commit its group, is the model's choice between R47, R48 and R59 and R101 (log 52). -/
def recordProgramDoneEffect (ok : Bool) (s : State) : State :=
  match s.ctrl.cur with
  | some (.programRecord loc record) =>
    let written :=
      if ok then writeSlot loc record true s
      else { writeSlot loc record (Config.failedProgramWhole s.free) s with free := s.free + 1 }
    let s₁ := completeOp written
    match s₁.log.grant with
    | some g =>
      if ok then
        match g.claimant with
        | .engine => engineProgrammed g loc s₁
        | .reclaim => copyProgrammed loc s₁
      else programFailed g loc s₁
    | none => s₁
  | _ => s

/-- RECORD_PROGRAM_DONE. -/
def execRecordProgramDone (ok : Bool) (s : State) : Host.Outcome State Fault Refusal :=
  .next (if running s then recordProgramDoneEffect ok s else s)

/-! ## The OPENED and FILLED marks (R53) -/

/-- The old head is closed and the new one opened (R53). -/
def changeHead (v stamp : Nat) (s : State) : State :=
  let s₁ :=
    match headOf s.log.segs with
    | some h => modSeg h SegEntry.closed s
    | none => s
  modSeg v (fun e => e.openAs stamp) s₁

/-- The FILLED mark of the old head is asked for, after the record's program (R53; log 18). -/
def askFilled (old : Option Nat) (s : State) : State :=
  match old with
  | some h => ask (.filledMark h) s
  | none => s

/-- The OPENED mark has succeeded: the heads change, the record is placed at offset 64 unless it was
abandoned, and the FILLED mark is asked for (R53). A COMMIT marker is placed whatever has become of its
group (log 49). -/
def openedSucceeded (v stamp : Nat) (s : State) : State :=
  let s₁ := changeHead v stamp s
  let s₂ :=
    match s₁.log.grant with
    | some g => if g.abandoned then endGrant s₁ else placeAt g v s₁
    | none => s₁
  grantNext (askFilled (headOf s.log.segs) s₂)

/-- The choice of a head is made again for the same claimant (R53). -/
def chooseAgain (g : Grant) (s : State) : State :=
  match g.claimant with
  | .engine => if g.retry then attemptRetry g s else attemptEngine (endGrant s)
  | .reclaim => attemptCopyWith g.record g.retry s

/-- The OPENED mark has failed: the chosen segment is retired, the READ_ONLY threshold and the
background thresholds are tested, and the choice is made again while the device remains READY (R53,
R61, R70; logs 42, 44 and 46 say in which order). -/
def openedFailed (v : Nat) (s : State) : State :=
  let s₁ := raiseRetired v .markFailure (modSeg v SegEntry.retire (ask (.retiredMark v .logManager) s))
  let s₂ := backgroundEvent (retirementTest s₁)
  let s₃ :=
    match s₂.log.grant with
    | some g => if g.abandoned || decide (s₂.log.device ≠ .ready) then endGrant s₂ else chooseAgain g s₂
    | none => s₂
  grantNext s₃

/-- OPENED_MARK_DONE (R53). -/
def openedMarkDoneEffect (ok : Bool) (s : State) : State :=
  match s.ctrl.cur with
  | some (.openedMark v stamp) =>
    let s₁ := completeOp (writeMark v .opened stamp ok s)
    if ok then openedSucceeded v stamp s₁ else openedFailed v s₁
  | _ => s

/-- OPENED_MARK_DONE. -/
def execOpenedMarkDone (ok : Bool) (s : State) : Host.Outcome State Fault Refusal :=
  .next (if running s then openedMarkDoneEffect ok s else s)

/-- FILLED_MARK_DONE (R53): a failure marks the old head suspect. -/
def filledMarkDoneEffect (ok : Bool) (s : State) : State :=
  match s.ctrl.cur with
  | some (.filledMark h) =>
    let s₁ := completeOp (writeMark h .filled 0 ok s)
    if ok then s₁ else markSuspect h s₁
  | _ => s

/-- FILLED_MARK_DONE. -/
def execFilledMarkDone (ok : Bool) (s : State) : Host.Outcome State Fault Refusal :=
  .next (if running s then filledMarkDoneEffect ok s else s)

/-! ## The marks and the erase of a pass (R73, R81, R83, R84) -/

/-- The pass on this victim begins its walk (R73, R74; log 15). -/
def beginWalk (v : Nat) (s : State) : State :=
  if s.reclaim.victim = some v ∧ s.reclaim.state = .copying ∧ s.reclaim.copy = none then walkStep s
  else s

/-- RECLAIM_MARK_DONE (R73): a failure marks the victim suspect, and the pass goes on. -/
def reclaimMarkDoneEffect (ok : Bool) (s : State) : State :=
  match s.ctrl.cur with
  | some (.reclaimMark v) =>
    let s₁ := completeOp (writeMark v .reclaim 0 ok s)
    beginWalk v (if ok then s₁ else markSuspect v s₁)
  | _ => s

/-- RECLAIM_MARK_DONE. -/
def execReclaimMarkDone (ok : Bool) (s : State) : Host.Outcome State Fault Refusal :=
  .next (if running s then reclaimMarkDoneEffect ok s else s)

/-- ERASE_MARK_DONE (R81): the segment is ERASING and the erase is asked for, or the victim is
retired. -/
def eraseMarkDoneEffect (ok : Bool) (s : State) : State :=
  match s.ctrl.cur with
  | some (.eraseMark v) =>
    let s₁ := completeOp (writeMark v .erase 0 ok s)
    if ok then ask (.erase v) (modSeg v (fun e => { e with state := .erasing }) s₁)
    else retireVictim v .markFailure s₁
  | _ => s

/-- ERASE_MARK_DONE. -/
def execEraseMarkDone (ok : Bool) (s : State) : Host.Outcome State Fault Refusal :=
  .next (if running s then eraseMarkDoneEffect ok s else s)

/-- ERASE_DONE (R83): the ERASED mark with the next erase count, or the retirement of the victim. -/
def eraseDoneEffect (ok : Bool) (s : State) : State :=
  match s.ctrl.cur with
  | some (.erase v) =>
    if ok then
      ask (.erasedMark v (nextEraseCount (segAt s.log.segs v).eraseCount)) (completeOp (eraseArray v s))
    else retireVictim v .eraseFailure (completeOp (halfErase v s))
  | _ => s

/-- ERASE_DONE. -/
def execEraseDone (ok : Bool) (s : State) : Host.Outcome State Fault Refusal :=
  .next (if running s then eraseDoneEffect ok s else s)

/-- ERASED_MARK_DONE (R83): the segment joins the erased pool, the directory takes a buried drop, and
the pass completes; or the victim is retired. -/
def erasedMarkDoneEffect (ok : Bool) (s : State) : State :=
  match s.ctrl.cur with
  | some (.erasedMark v count) =>
    let s₁ := completeOp (writeMark v .erased count ok s)
    if ok then
      completePass (freedBytes s₁) (buriedDrop v (modSeg v (fun e => e.pooled count) s₁))
    else retireVictim v .markFailure s₁
  | _ => s

/-- ERASED_MARK_DONE. -/
def execErasedMarkDone (ok : Bool) (s : State) : Host.Outcome State Fault Refusal :=
  .next (if running s then erasedMarkDoneEffect ok s else s)

/-- RETIRED_MARK_DONE (R84): the segment is RETIRED whatever the outcome. -/
def retiredMarkDoneEffect (ok : Bool) (s : State) : State :=
  match s.ctrl.cur with
  | some (.retiredMark v _) => completeOp (writeMark v .retired 0 ok s)
  | _ => s

/-- RETIRED_MARK_DONE. -/
def execRetiredMarkDone (ok : Bool) (s : State) : Host.Outcome State Fault Refusal :=
  .next (if running s then retiredMarkDoneEffect ok s else s)

/-! ## The copy's read (R75, R76, R131) -/

/-- The copy in hand is cleared and the walk takes its next step (R74). -/
def clearCopy (s : State) : State :=
  walkStep { s with reclaim := { s.reclaim with copy := none } }

/-- The copy in hand with this record in the copy buffer claims the append point (R76). -/
def bufferCopy (c : Copy) (r : Record) (s : State) : State :=
  claimCopy { s with reclaim := { s.reclaim with copy := some { c with buffer := some r } } }

/-- The SYSTEM record the settings table answers a lost report with (R131). -/
def answeredRecord (t : Setting) : Record := { settingRecord t.id t.value with sn := t.sn }

/-- The read of the copy failed its check: the record-lost report goes to the owner that names the
record (R17, R75, R106, R131). -/
def copyLost (c : Copy) (s : State) : State :=
  match c.owner with
  | .directory => clearCopy (lostRemoval c.ns c.key c.sn c.loc s)
  | .group => clearCopy (groupLost c s)
  | .settings =>
    match settingMatch c s with
    | some t => bufferCopy c (answeredRecord t) (raiseLost 0 true t.sn [t.id] s)
    | none => clearCopy s

/-- COPY_READ_DONE (R75): the copy claims the append point, or its loss is reported; a copy that a
DISCARD has declined is dropped (R105; log 24). -/
def copyReadDoneEffect (ok : Bool) (s : State) : State :=
  match s.ctrl.cur with
  | some (.copyRead loc) =>
    let s₁ := completeOp s
    match s₁.reclaim.copy with
    | some c =>
      if c.dropped then clearCopy s₁
      else
        match recordAt s loc with
        | some r => if ok then bufferCopy c r s₁ else copyLost c s₁
        | none => copyLost c s₁
    | none => s₁
  | _ => s

/-- COPY_READ_DONE. -/
def execCopyReadDone (ok : Bool) (s : State) : Host.Outcome State Fault Refusal :=
  .next (if running s then copyReadDoneEffect ok s else s)

end Sys2Proof.Machine
end

