-- ==== Sys2Proof/Machine/Recovery.lean ====
section
/-!
DEFINITION. What mount decides from what it has read (spec/06 R110 to R125): the class of a segment, the
records that count, the rebuilt directory and settings table, the settled segments and the counters.
-/

namespace Sys2Proof.Machine

open Sys2Proof

/-! ## Descriptors (R110, R111) -/

/-- The mark is valid. -/
def Mark.isValid (m : Mark) : Bool :=
  match m with
  | .valid _ => true
  | .blank | .failed => false

/-- What a valid mark carries. -/
def Mark.carried (m : Mark) : Option Nat :=
  match m with
  | .valid n => some n
  | .blank | .failed => none

/-- A position as read, whose check may have failed over the bytes. -/
def Mark.asRead (m : Mark) (fails : Bool) : Mark := if fails && m.isValid then .failed else m

/-- A descriptor as read; the places that fail are numbered in the order of R44, from 0. -/
def Marks.asRead (m : Marks) (bad : List Nat) : Marks :=
  { erased := m.erased.asRead (bad.contains 0), opened := m.opened.asRead (bad.contains 1)
    filled := m.filled.asRead (bad.contains 2), reclaim := m.reclaim.asRead (bad.contains 3)
    erase := m.erase.asRead (bad.contains 4), retired := m.retired.asRead (bad.contains 5) }

/-- The class of a segment: the first row of R110 that applies; rows 4 to 6 need a valid ERASED and a
valid OPENED mark. -/
def classify (m : Marks) : SegClass :=
  let aged (c : SegClass) : SegClass := if m.erased.isValid && m.opened.isValid then c else .unknown
  if m.retired.isValid then .retired
  else if m.retired = .failed then .unknown
  else if m.erase ≠ .blank then .unknown
  else if m.reclaim.isValid then aged .reclaiming
  else if m.filled.isValid then aged .filled
  else if m.opened.isValid then aged .opened
  else if m.opened = .failed then .unknown
  else if m.erased.isValid && decide (m.filled = .blank) && decide (m.reclaim = .blank) then .erased
  else .unknown

/-- What mount keeps from a descriptor (R111). -/
def readDescriptor (m : Marks) : SegRead :=
  { cls := classify m, eraseCount := m.erased.carried, stamp := m.opened.carried }

/-- The greatest of some numbers, 0 for none. -/
def greatest (numbers : List Nat) : Nat := numbers.foldl max 0

/-- The highest readable erase count (R111). -/
def highestCount (reads : List SegRead) : Nat := greatest (reads.filterMap SegRead.eraseCount)

/-- The stamp counter (R111): one above the greatest stamp, 1 when none is found. -/
def stampAfter (reads : List SegRead) : Nat := greatest (reads.filterMap SegRead.stamp) + 1

/-- What was read of segment `i`. -/
def readAt (reads : List SegRead) (i : Nat) : SegRead :=
  reads.getD i { cls := .unknown, eraseCount := none, stamp := none }

/-- The open stamp of segment `i`, 0 where none is known. -/
def stampAt (reads : List SegRead) (i : Nat) : Nat := (readAt reads i).stamp.getD 0

/-- The segment is walked (R112). -/
def SegClass.walked (c : SegClass) : Bool :=
  match c with
  | .opened | .filled | .reclaiming => true
  | .erased | .retired | .unknown => false

/-- The segments of these classes, in ascending index order. -/
def indicesOf (reads : List SegRead) (p : SegClass → Bool) : List Nat :=
  (List.range reads.length).filter fun i => p (readAt reads i).cls

/-- Insert a segment by ascending open stamp. -/
def insertByStamp (reads : List SegRead) (i : Nat) (sorted : List Nat) : List Nat :=
  match sorted with
  | [] => [i]
  | j :: rest =>
    if stampAt reads i < stampAt reads j then i :: j :: rest else j :: insertByStamp reads i rest

/-- The walked segments, in ascending order of open stamp (R112). -/
def walkOrder (reads : List SegRead) : List Nat :=
  (indicesOf reads SegClass.walked).foldl (fun sorted i => insertByStamp reads i sorted) []

/-! ## Walk and scan (R112 to R114) -/

/-- What a walk meets at an offset (R112). -/
inductive WalkView
  | stops (stop : WalkStop) | finds (record : Record)
  deriving DecidableEq, Repr

/-- The tests of R112 on the header a record has at an offset: key and value length in range, and its
size within the segment. Its kind is one of the five by its type. -/
def Record.headerPasses (off : Nat) (r : Record) : Bool :=
  decide (r.key.length ≤ Config.maxKey ∧ r.value.length ≤ Config.maxValue ∧
    off + r.size ≤ Config.segmentBytes)

/-- The walk at an offset (R112): the end of the area, erased space, a record that passes its tests and
its check, or a failing record. -/
def walkView (a : ArraySeg) (off : Nat) (bad : List Nat) : WalkView :=
  if Config.segmentBytes ≤ off then .stops .areaEnd
  else if a.slots.all fun t => decide (t.off < off) then .stops .erasedSpace
  else
    match a.slots.find? fun t => decide (t.off = off) with
    | some t =>
      match t.record with
      | some r => if r.headerPasses off && !bad.contains off then .finds r else .stops .torn
      | none => .stops .torn
    | none => .stops .torn

/-- The SN of a placed record that passes in a region (R114). -/
def Slot.scanned (t : Slot) (start : Nat) (bad : List Nat) : Option Nat :=
  match t.record with
  | some r =>
    if start ≤ t.off ∧ r.headerPasses t.off = true ∧ bad.contains t.off = false then some r.sn else none
  | none => none

/-- The greatest SN of a placed record that passes in a region (R114). -/
def scanRegion (a : ArraySeg) (start : Nat) (bad : List Nat) : Nat :=
  greatest (a.slots.filterMap fun t => t.scanned start bad)

/-- The written bytes of a region (R114). -/
def regionSlots (a : ArraySeg) (start : Nat) : List Slot :=
  a.slots.filter fun t => decide (start ≤ t.off)

/-- A region holds written bytes, at other multiples of 4 than the starts of its records, that the scan
may find to be a record: any record bytes but a torn tail followed by erased space, over which the scan
finds nothing (R114; log 41). -/
def mayHoldStray (region : List Slot) : Bool :=
  match region with
  | [] => false
  | [t] => t.record.isSome
  | _ => true

/-- The SN the scan of a region takes from such bytes, 0 where it takes none; the same bytes, read
alike, give the same SN (R114, R127; log 41). -/
def straySn (region : List Slot) (start : Nat) (bad : List Nat) : Nat :=
  if mayHoldStray region then (Config.strayImageSn region start bad).val else 0

/-- The regions the scan reads: the remainders of torn walks, and the record areas of RETIRED and
UNKNOWN segments (R114). -/
def scanRegions (m : Mount) : List Loc :=
  (m.ends.filter fun e => decide (e.stop = .torn)).map (fun e => { seg := e.seg, off := e.off })
    ++ (indicesOf m.reads fun c => decide (c = .retired ∨ c = .unknown)).map
      fun i => { seg := i, off := Config.descriptorBytes }

/-! ## Which records count (R115 to R117) -/

/-- The SN of the newest FORMAT marker found, 0 without one (R115). -/
def formatSn (found : List Found) : Nat :=
  greatest ((found.filter fun f => decide (f.record.kind = .format)).map fun f => f.record.sn)

/-- A VALUE, TOMBSTONE or COMMIT below the newest FORMAT marker is void (R115). -/
def isVoid (found : List Found) (r : Record) : Bool :=
  match r.kind with
  | .value | .tombstone | .commit => decide (r.sn < formatSn found)
  | .system | .format => false

/-- A COMMIT record covers a tagged record's SN (R116). -/
def covers (c : Record) (sn : Nat) : Bool :=
  let first := leNat c.value
  decide (c.kind = .commit ∧ 0 < first ∧ first < c.sn ∧ first ≤ sn ∧ sn < c.sn)

/-- A VALUE or TOMBSTONE stands (R116). -/
def stands (found : List Found) (r : Record) : Bool :=
  decide (r.kind = .value ∨ r.kind = .tombstone) && !isVoid found r &&
    (!r.tagged || found.any fun c => covers c.record r.sn && !isVoid found c.record)

/-- Which of two records of one name is newer: the greater SN, then the higher open stamp, then the
higher offset (R117). -/
def newer (reads : List SegRead) (a b : Found) : Bool :=
  if a.record.sn ≠ b.record.sn then decide (b.record.sn < a.record.sn)
  else if stampAt reads a.loc.seg ≠ stampAt reads b.loc.seg then
    decide (stampAt reads b.loc.seg < stampAt reads a.loc.seg)
  else decide (b.loc.off < a.loc.off)

/-- One record of every name, the newest (R117). -/
def addNewest (reads : List SegRead) (f : Found) (names : List Found) : List Found :=
  match names with
  | [] => [f]
  | g :: rest =>
    if g.record.ns = f.record.ns ∧ g.record.key = f.record.key then
      (if newer reads f g then f else g) :: rest
    else g :: addNewest reads f rest

/-- The record of every name (R117). -/
def nameRecords (reads : List SegRead) (found : List Found) : List Found :=
  (found.filter fun f => stands found f.record).foldl (fun names f => addNewest reads f names) []

/-- The directory entry a name's record gives (R118). -/
def Found.entry (f : Found) : Entry :=
  { ns := f.record.ns, key := f.record.key
    state := if f.record.kind = .value then .live f.record.value.length else .buried
    version := f.record.sn, loc := f.loc }

/-- The order of admission: LIVE before BURIED, then descending version (R118). -/
def admittedBefore (a b : Entry) : Bool :=
  if a.isLive = b.isLive then decide (b.version < a.version) else a.isLive

/-- Insert an entry in the order of admission. -/
def insertEntry (e : Entry) (sorted : List Entry) : List Entry :=
  match sorted with
  | [] => [e]
  | x :: rest => if admittedBefore e x then e :: x :: rest else x :: insertEntry e rest

/-- The entries in the order of admission (R118). -/
def admission (entries : List Entry) : List Entry :=
  entries.foldl (fun sorted e => insertEntry e sorted) []

/-- The rebuilt directory, in directory order (R118). -/
def rebuiltDir (entries : List Entry) : List Entry :=
  ((admission entries).take Config.dirSlots).foldl dirPut []

/-- The setting of an id, from the newest SYSTEM record of that id (R117, R119). -/
def rebuiltSetting (reads : List SegRead) (found : List Found) (id : Byte) : Option Setting :=
  let own := found.filter fun f => decide (f.record.kind = .system ∧ f.record.key = [id])
  let newest := own.foldl
    (fun best f =>
      match best with
      | some b => if newer reads f b then some f else some b
      | none => some f)
    none
  match newest with
  | some f =>
    if settingValueOk id f.record.value then
      some { id := id, value := f.record.value, sn := f.record.sn, loc := f.loc }
    else none
  | none => none

/-- The rebuilt settings table (R119). -/
def rebuiltSettings (reads : List SegRead) (found : List Found) : List Setting :=
  settingIds.filterMap (rebuiltSetting reads found)

/-! ## The segments (R120, R121) -/

/-- The end of a segment's walk. -/
def endOf (ends : List WalkEnd) (i : Nat) : Option WalkEnd := ends.find? fun e => decide (e.seg = i)

/-- The head mount keeps: the walked segment with the greatest stamp, when it is OPEN and its walk did
not end torn (R120). -/
def keptHead (m : Mount) : Option Nat :=
  match (walkOrder m.reads).getLast? with
  | some i =>
    match endOf m.ends i with
    | some e =>
      if (readAt m.reads i).cls = .opened ∧ e.stop ≠ .torn then some i else none
    | none => none
  | none => none

/-- The OPEN segments mount closes, in ascending index order (R120; log 28). -/
def toClose (m : Mount) : List Nat :=
  (indicesOf m.reads fun c => decide (c = .opened)).filter fun i => !decide (keptHead m = some i)

/-- The RECLAIMING segment that stays so: the one with the lowest stamp (R120). -/
def keptVictim (m : Mount) : Option Nat :=
  ((walkOrder m.reads).filter fun i => decide ((readAt m.reads i).cls = .reclaiming)).head?

/-- The live bytes of a segment: the records LIVE entries and settings name there (R121). -/
def liveIn (dir : List Entry) (settings : List Setting) (i : Nat) : Nat :=
  ((dir.filter fun e => e.isLive && decide (e.loc.seg = i)).map Entry.recordSize).sum
    + ((settings.filter fun t => decide (t.loc.seg = i)).map Setting.recordSize).sum

/-- The entry of a walked segment in this state (R121). -/
def walkedEntry (m : Mount) (i : Nat) (state : SegState) (used : Nat) (marked : Bool) : SegEntry :=
  { state := state, stamp := (readAt m.reads i).stamp
    eraseCount := (readAt m.reads i).eraseCount.getD 0, used := used
    live := liveIn m.dir m.settings i, suspect := false, pin := false, reclaimMarked := marked }

/-- The entry mount gives segment `i` (R120, R121). An UNKNOWN segment stands as ERASING until it is
erased or retired. -/
def settledEntry (m : Mount) (i : Nat) : SegEntry :=
  match (readAt m.reads i).cls with
  | .erased =>
    { SegEntry.none_ with state := .erased, eraseCount := (readAt m.reads i).eraseCount.getD 0 }
  | .opened =>
    if keptHead m = some i then
      match endOf m.ends i with
      | some e => walkedEntry m i .opened (e.off - Config.descriptorBytes) false
      | none => walkedEntry m i .opened 0 false
    else walkedEntry m i .filled Config.recordArea false
  | .filled => walkedEntry m i .filled Config.recordArea false
  | .reclaiming =>
    if keptVictim m = some i then walkedEntry m i .reclaiming Config.recordArea false
    else walkedEntry m i .filled Config.recordArea true
  | .retired => SegEntry.none_
  | .unknown => { SegEntry.none_ with state := .erasing }

/-- Everything mount rebuilds in working memory once its reads are done (R111, R115 to R121, R123). -/
def Mount.rebuild (m : Mount) : Mount :=
  let entries := (nameRecords m.reads m.found).map Found.entry
  let m₁ := { m with
    dir := rebuiltDir entries, leftOut := entries.length - Config.dirSlots
    settings := rebuiltSettings m.reads m.found
    sn := max (greatest (m.found.map fun (f : Found) => f.record.sn)) m.scanSn + 1
    stamp := stampAfter m.reads }
  { m₁ with segs := (List.range m.reads.length).map (settledEntry m₁) }

/-- The erase count an UNKNOWN segment takes (R122). -/
def reEraseCount (m : Mount) (i : Nat) : Nat :=
  nextEraseCount ((readAt m.reads i).eraseCount.getD (highestCount m.reads))

/-- A segment retired by mount (R121, R122, R124). -/
def Mount.retire (m : Mount) (i : Nat) : Mount :=
  { m with segs := m.segs.modify i fun _ => SegEntry.none_, retiredBy := m.retiredBy + 1 }

/-- A segment erased by mount joins the pool (R122). -/
def Mount.pool (m : Mount) (i count : Nat) : Mount :=
  { m with segs := m.segs.modify i fun e => e.pooled count, erasedBy := m.erasedBy + 1 }

/-! ## The device state (R125) -/

/-- The READ_ONLY cause at the end of mount, in the order of R125. -/
def mountCause (segs : List SegEntry) (sn stamp : Nat) : RoCause :=
  if inUse segs < Config.minSegments then .retirement
  else if sn = Config.counterEnd then .snExhaustion
  else if headOf segs = none then
    (if stamp = Config.counterEnd then .stampExhaustion else .noHead)
  else .noCause

/-- The segment mount opens as the head, when it opens one (R124). -/
def headToOpen (m : Mount) : Option Nat :=
  if headOf m.segs ≠ none ∨ inUse m.segs < Config.minSegments ∨ m.sn = Config.counterEnd ∨
      m.stamp = Config.counterEnd then none
  else chooseHead m.segs

end Sys2Proof.Machine
end

