-- ==== Sys2Proof/Machine/Mount.lean ====
section
/-!
DEFINITION. Mount's steps (spec/06 R110 to R126): the completions of its reads, marks and erases, and
its end.
-/

namespace Sys2Proof.Machine

open Sys2Proof

/-- Mount goes on with this working state, asking the array controller for this operation, or for none. -/
def mountAsk (m : Mount) (op : Option ArrayOp) (s : State) : State :=
  { s with mount := some m, ctrl := { s.ctrl with cur := op } }

/-! ## From phase to phase -/

/-- Open a head, or finish (R124). -/
def nextOpen (m : Mount) (s : State) : State :=
  match headToOpen m with
  | some v =>
    mountAsk { m with phase := .openHead v, stamp := m.stamp + 1 }
      (some (.mountOpenedMark v m.stamp)) s
  | none => mountAsk { m with phase := .finished } none s

/-- Erase the next UNKNOWN segment (R122). -/
def nextErase (m : Mount) (todo : List Nat) (s : State) : State :=
  match todo with
  | [] => nextOpen m s
  | i :: _ => mountAsk { m with phase := .reErase todo } (some (.mountErase i)) s

/-- Close the next OPEN segment (R120). -/
def nextClose (m : Mount) (todo : List Nat) (s : State) : State :=
  match todo with
  | [] => nextErase m (indicesOf m.reads fun c => decide (c = .unknown)) s
  | i :: _ => mountAsk { m with phase := .close todo } (some (.mountFilledMark i)) s

/-- Scan the next region; after the last, everything read is decided and settled (R114 to R121). -/
def nextScan (m : Mount) (todo : List Loc) (s : State) : State :=
  match todo with
  | [] => nextClose m.rebuild (toClose m) s
  | _ :: _ => mountAsk { m with phase := .scan todo } (some .mountRead) s

/-- Walk the next segment (R112). -/
def nextWalk (m : Mount) (todo : List Nat) (s : State) : State :=
  match todo with
  | [] => nextScan m (scanRegions m) s
  | _ :: _ => mountAsk { m with phase := .walk todo Config.descriptorBytes } (some .mountRead) s

/-! ## MOUNT_READ_DONE -/

/-- A descriptor has been read (R110, R111). -/
def descriptorRead (m : Mount) (seg : Nat) (bad : List Nat) (s : State) : State :=
  let read := readDescriptor ((arraySeg s seg).marks.asRead bad)
  let m₁ := { m with reads := m.reads ++ [read] }
  if seg + 1 < Config.segments then
    mountAsk { m₁ with phase := .descriptor (seg + 1) } (some .mountRead) s
  else nextWalk m₁ (walkOrder m₁.reads) s

/-- A walk has read at an offset: it goes on after a record, and ends otherwise; a failing record is
discarded (R112, R113). -/
def walkRead (m : Mount) (seg : Nat) (rest : List Nat) (off : Nat) (bad : List Nat) (s : State) :
    State :=
  match walkView (arraySeg s seg) off bad with
  | .finds r =>
    mountAsk
      { m with phase := .walk (seg :: rest) (off + r.size)
               found := m.found ++ [{ loc := { seg := seg, off := off }, record := r }] }
      (some .mountRead) s
  | .stops stop =>
    nextWalk
      { m with ends := m.ends ++ [{ seg := seg, off := off, stop := stop }]
               discarded := if stop = .torn then m.discarded + 1 else m.discarded }
      rest s

/-- A region has been scanned: the records placed there, and, as a free value, the record images at its
other multiples of 4, the same whenever the same bytes are scanned (R114, R127; log 41). -/
def scanRead (m : Mount) (region : Loc) (rest : List Loc) (bad : List Nat) (s : State) : State :=
  let a := arraySeg s region.seg
  let sn := max (scanRegion a region.off bad) (straySn (regionSlots a region.off) region.off bad)
  nextScan { m with scanSn := max m.scanSn sn } rest s

/-- MOUNT_READ_DONE (R110 to R114; log 27). -/
def mountReadDoneEffect (bad : List Nat) (s : State) : State :=
  match s.ctrl.cur, s.mount with
  | some .mountRead, some m =>
    match m.phase with
    | .descriptor seg => descriptorRead m seg bad s
    | .walk (seg :: rest) off => walkRead m seg rest off bad s
    | .scan (region :: rest) => scanRead m region rest bad s
    | .walk [] _ | .scan [] | .close _ | .reErase _ | .openHead _ | .finished => s
  | _, _ => s

/-- MOUNT_READ_DONE. -/
def execMountReadDone (bad : List Nat) (s : State) : Host.Outcome State Fault Refusal :=
  .next (if running s then mountReadDoneEffect bad s else s)

/-! ## The marks and erases of mount (R120, R122, R124) -/

/-- MOUNT_FILLED_MARK_DONE (R120): a failure marks the segment suspect. -/
def mountFilledMarkDoneEffect (ok : Bool) (s : State) : State :=
  match s.ctrl.cur, s.mount with
  | some (.mountFilledMark i), some m =>
    let suspect (e : SegEntry) : SegEntry := { e with suspect := !ok }
    nextClose { m with segs := m.segs.modify i suspect }
      (match m.phase with
        | .close (_ :: rest) => rest
        | _ => [])
      (writeMark i .filled 0 ok s)
  | _, _ => s

/-- MOUNT_FILLED_MARK_DONE. -/
def execMountFilledMarkDone (ok : Bool) (s : State) : Host.Outcome State Fault Refusal :=
  .next (if running s then mountFilledMarkDoneEffect ok s else s)

/-- Mount retires a segment and asks for its RETIRED mark (R122, R124; log 29). -/
def mountRetire (m : Mount) (i : Nat) (s : State) : State :=
  mountAsk (m.retire i) (some (.mountRetiredMark i)) s

/-- MOUNT_ERASE_DONE (R122): the ERASED mark with the new count, or retirement. -/
def mountEraseDoneEffect (ok : Bool) (s : State) : State :=
  match s.ctrl.cur, s.mount with
  | some (.mountErase i), some m =>
    if ok then mountAsk m (some (.mountErasedMark i (reEraseCount m i))) (eraseArray i s)
    else mountRetire m i (halfErase i s)
  | _, _ => s

/-- MOUNT_ERASE_DONE. -/
def execMountEraseDone (ok : Bool) (s : State) : Host.Outcome State Fault Refusal :=
  .next (if running s then mountEraseDoneEffect ok s else s)

/-- The segments still to erase after the first (R122). -/
def MountPhase.afterErase (p : MountPhase) : List Nat :=
  match p with
  | .reErase (_ :: rest) => rest
  | _ => []

/-- MOUNT_ERASED_MARK_DONE (R122): the segment joins the pool, or is retired. -/
def mountErasedMarkDoneEffect (ok : Bool) (s : State) : State :=
  match s.ctrl.cur, s.mount with
  | some (.mountErasedMark i count), some m =>
    let s₁ := writeMark i .erased count ok s
    if ok then nextErase (m.pool i count) m.phase.afterErase s₁ else mountRetire m i s₁
  | _, _ => s

/-- MOUNT_ERASED_MARK_DONE. -/
def execMountErasedMarkDone (ok : Bool) (s : State) : Host.Outcome State Fault Refusal :=
  .next (if running s then mountErasedMarkDoneEffect ok s else s)

/-- MOUNT_RETIRED_MARK_DONE (R122, R124): mount goes on with the next segment to erase, or chooses a
head again. -/
def mountRetiredMarkDoneEffect (ok : Bool) (s : State) : State :=
  match s.ctrl.cur, s.mount with
  | some (.mountRetiredMark i), some m => nextErase m m.phase.afterErase (writeMark i .retired 0 ok s)
  | _, _ => s

/-- MOUNT_RETIRED_MARK_DONE. -/
def execMountRetiredMarkDone (ok : Bool) (s : State) : Host.Outcome State Fault Refusal :=
  .next (if running s then mountRetiredMarkDoneEffect ok s else s)

/-- MOUNT_OPENED_MARK_DONE (R124): the segment is the head, or is retired. -/
def mountOpenedMarkDoneEffect (ok : Bool) (s : State) : State :=
  match s.ctrl.cur, s.mount with
  | some (.mountOpenedMark i stamp), some m =>
    let s₁ := writeMark i .opened stamp ok s
    if ok then nextOpen { m with segs := m.segs.modify i fun e => e.openAs stamp } s₁
    else mountRetire m i s₁
  | _, _ => s

/-- MOUNT_OPENED_MARK_DONE. -/
def execMountOpenedMarkDone (ok : Bool) (s : State) : Host.Outcome State Fault Refusal :=
  .next (if running s then mountOpenedMarkDoneEffect ok s else s)

/-! ## MOUNT_END (R125, R126) -/

/-- The MOUNTED notice (R126). -/
def mountedNotice (m : Mount) (kind : ResetKind) : Notice :=
  let cause := mountCause m.segs m.sn m.stamp
  .mounted (if cause = .noCause then .ready else .readOnly) cause kind (liveTotal m.dir)
    (buriedTotal m.dir) (erasedCount m.segs) (countSegs m.segs .retired) m.discarded m.erasedBy
    m.retiredBy m.leftOut

/-- The rebuilt state takes effect (R19, R126, R137, R147). -/
def install (m : Mount) (s : State) : State :=
  let device : DeviceState :=
    if mountCause m.segs m.sn m.stamp = .noCause then .ready else .readOnly
  { s with
    mount := none, dir := m.dir
    prot := { s.prot with settings := m.settings
                          gateOpen := decide (policyOf m.settings ≠ .passphrase) }
    log := { s.log with device := device, segs := m.segs, sn := m.sn, stamp := m.stamp } }

/-- The RECLAIMING segment of a table. -/
def reclaimingSeg (segs : List SegEntry) : Option Nat :=
  segs.findIdx? fun e => decide (e.state = .reclaiming)

/-- The reclaim unit resumes the pass of a RECLAIMING segment, which in READ_ONLY stops at its first
needed record, or tests the thresholds (R70, R90, R126). -/
def resumeReclaim (s : State) : State :=
  match reclaimingSeg s.log.segs with
  | some v =>
    let s₁ := { s with reclaim := s.reclaim.onVictim v }
    if s.log.device ≠ .ready ∧ (lowestNamed v Config.descriptorBytes s₁).isSome then stopPass s₁
    else walkStep s₁
  | none => backgroundEvent s

/-- MOUNT_END (R126). -/
def mountEndEffect (s : State) : State :=
  match s.mount with
  | some m =>
    if m.phase = .finished then resumeReclaim (raise (mountedNotice m s.resetKind) (install m s))
    else s
  | none => s

/-- MOUNT_END. -/
def execMountEnd (s : State) : Host.Outcome State Fault Refusal :=
  .next (if running s then mountEndEffect s else s)

end Sys2Proof.Machine
end

