-- ==== Sys2Proof/Machine/Dispatch.lean ====
section
/-!
DEFINITION. The meaning of every command: one arm per row of spec/opcode_table.json.
-/

namespace Sys2Proof.Machine

open Sys2Proof

def exec (i : Instr) (s : State) : Host.Outcome State Fault Refusal :=
  match i with
  | .send kind tag payload crc => Sys2Proof.Machine.execSend kind tag payload crc s
  | .fetch => Sys2Proof.Machine.execFetch s
  | .take number => Sys2Proof.Machine.execTake number s
  | .poll => Sys2Proof.Machine.execPoll s
  | .cancel tag => Sys2Proof.Machine.execCancel tag s
  | .unknownOperation operation => Sys2Proof.Machine.execUnknownOperation operation s
  | .transactionCut received open_ => Sys2Proof.Machine.execTransactionCut received s open_
  | .powerOn => Sys2Proof.Machine.execPowerOn s
  | .rstAsserted width => Sys2Proof.Machine.execRstAsserted width s
  | .rstReleased => Sys2Proof.Machine.execRstReleased s
  | .ident => Sys2Proof.Machine.execIdent s
  | .select => Sys2Proof.Machine.execSelect s
  | .space => Sys2Proof.Machine.execSpace s
  | .put => Sys2Proof.Machine.execPut s
  | .data => Sys2Proof.Machine.execData s
  | .get => Sys2Proof.Machine.execGet s
  | .stat => Sys2Proof.Machine.execStat s
  | .delete => Sys2Proof.Machine.execDelete s
  | .list => Sys2Proof.Machine.execList s
  | .begin => Sys2Proof.Machine.execBegin s
  | .commit => Sys2Proof.Machine.execCommit s
  | .discard => Sys2Proof.Machine.execDiscard s
  | .tidy => Sys2Proof.Machine.execTidy s
  | .format => Sys2Proof.Machine.execFormat s
  | .setLimit => Sys2Proof.Machine.execSetLimit s
  | .lock => Sys2Proof.Machine.execLock s
  | .lockdown => Sys2Proof.Machine.execLockdown s
  | .persist => Sys2Proof.Machine.execPersist s
  | .gateClose => Sys2Proof.Machine.execGateClose s
  | .unlock => Sys2Proof.Machine.execUnlock s
  | .setPassphrase => Sys2Proof.Machine.execSetPassphrase s
  | .setPolicy => Sys2Proof.Machine.execSetPolicy s
  | .finalize => Sys2Proof.Machine.execFinalize s
  | .protectStatus => Sys2Proof.Machine.execProtectStatus s
  | .reset => Sys2Proof.Machine.execReset s
  | .unknownKind => Sys2Proof.Machine.execUnknownKind s
  | .assemblyTimerExpiry => Sys2Proof.Machine.execAssemblyTimerExpiry s
  | .recordProgramDone ok => Sys2Proof.Machine.execRecordProgramDone ok s
  | .openedMarkDone ok => Sys2Proof.Machine.execOpenedMarkDone ok s
  | .filledMarkDone ok => Sys2Proof.Machine.execFilledMarkDone ok s
  | .reclaimMarkDone ok => Sys2Proof.Machine.execReclaimMarkDone ok s
  | .eraseMarkDone ok => Sys2Proof.Machine.execEraseMarkDone ok s
  | .eraseDone ok => Sys2Proof.Machine.execEraseDone ok s
  | .erasedMarkDone ok => Sys2Proof.Machine.execErasedMarkDone ok s
  | .retiredMarkDone ok => Sys2Proof.Machine.execRetiredMarkDone ok s
  | .getFirstReadDone ok => Sys2Proof.Machine.execGetFirstReadDone ok s
  | .chunkReadDone => Sys2Proof.Machine.execChunkReadDone s
  | .copyReadDone ok => Sys2Proof.Machine.execCopyReadDone ok s
  | .mountReadDone bad => Sys2Proof.Machine.execMountReadDone bad s
  | .mountFilledMarkDone ok => Sys2Proof.Machine.execMountFilledMarkDone ok s
  | .mountEraseDone ok => Sys2Proof.Machine.execMountEraseDone ok s
  | .mountErasedMarkDone ok => Sys2Proof.Machine.execMountErasedMarkDone ok s
  | .mountRetiredMarkDone ok => Sys2Proof.Machine.execMountRetiredMarkDone ok s
  | .mountOpenedMarkDone ok => Sys2Proof.Machine.execMountOpenedMarkDone ok s
  | .mountEnd => Sys2Proof.Machine.execMountEnd s
  | .powerLoss => Sys2Proof.Machine.execPowerLoss s
  | .sendBadLength kind tag length => Sys2Proof.Machine.execSendBadLength kind tag length s
  | .selReleased => Sys2Proof.Machine.execSelReleased s

end Sys2Proof.Machine
end

