-- ==== Sys2Proof/Safety.lean ====
section
/-!
DEFINITION. The terms that statements about the part are written in: where the engine stands when it
takes a frame, what an answered request leaves, when a record can be placed at once and what that
leaves, when nothing follows the end of an array operation, and the invariants of the part.
-/

namespace Sys2Proof.Machine

open Sys2Proof

/-! ## The take of a frame (R149 to R152, R156) -/

/-- The engine, IDLE with nothing in hand, takes frame `f` from the head of the inbound queue: the part
runs, mount has ended, a reply slot is free, and so no notice is pending (R150, R157). -/
structure AtTake (s : State) (f : Frame) (rest : List Frame) : Prop where
  powered : s.powered = true
  rst : s.rst = false
  mounted : s.log.device ≠ .mounting
  idle : s.engine.toIdle = s.engine
  head : s.inbound = f :: rest
  slot : s.replies.length < 8
  quiet : s.notices = []

/-- The engine takes frame `f` while a PUT assembles (R22 to R24). -/
structure AtAssembling (s : State) (r : Request) (a : Assembly) (f : Frame) (rest : List Frame) :
    Prop where
  powered : s.powered = true
  rst : s.rst = false
  mounted : s.log.device ≠ .mounting
  state : s.engine.state = .assembling
  request : s.engine.request = some r
  assembly : s.engine.assembly = some a
  head : s.inbound = f :: rest

/-- One more frame in the reply queue, under the next reply sequence number (R156). -/
def replied (o : Out) (s : State) : State :=
  { s with replies := s.replies ++ [{ seq := s.replySeq, out := o }], replySeq := s.replySeq + 1 }

/-- Frame `f` is taken and answered, and nothing else changes: its frame is gone from the inbound
queue, and the reply stands at the tail of the reply queue, under the request's kind plus 0x80 and its
tag (R151, R152). -/
def answered (f : Frame) (rest : List Frame) (status : Status) (payload : Bytes) (s : State) : State :=
  replied { kind := f.kind + 0x80, tag := f.tag, status := status, payload := payload }
    { s with inbound := rest }

/-- The current request that frame `f` becomes (R1, R151, R153). -/
def requestOf (f : Frame) (s : State) : Request :=
  { kind := f.kind, tag := f.tag, ns := s.engine.ns, mode := s.engine.mode }

/-- The current request `r` has ended with this reply, queued at once; the engine is IDLE (R149). -/
def concluded (r : Request) (status : Status) (payload : Bytes) (s : State) : State :=
  replied { kind := r.kind + 0x80, tag := r.tag, status := status, payload := payload }
    { s with engine := s.engine.toIdle }

/-! ## Placing a record (R49 to R55) -/

/-- A record of this size is placed at once when it is handed over: the device is READY, the append
point and the array controller are free, the record fits the head, and the SN it takes is not the
last one. -/
structure PlacesAtOnce (s : State) (head size : Nat) : Prop where
  ready : s.log.device = .ready
  free : s.log.grant = none
  isHead : headOf s.log.segs = some head
  sound : (segAt s.log.segs head).suspect = false
  fits : (segAt s.log.segs head).used + size ≤ 16320
  idle : s.ctrl.cur = none
  empty : s.ctrl.queue = []
  more : s.log.sn + 1 ≠ 4294967295

/-- The record of a job has been placed in the head: it has taken the SN counter's value and the
head's write offset, its bytes are used, and its program is in progress (R49, R52). -/
def placed (j : Job) (head : Nat) (s : State) : State :=
  let record := { j.record with sn := s.log.sn }
  let loc : Loc := { seg := head, off := 64 + (segAt s.log.segs head).used }
  { s with
    engine := { s.engine with state := .busy, job := some j, assembly := none }
    log := { s.log with
      segs := s.log.segs.modify head fun e => { e with used := e.used + record.size }
      sn := s.log.sn + 1, engineWaits := false
      grant := some
        { claimant := .engine, record := record, retry := false, stage := .programming loc
          abandoned := false } }
    ctrl := { s.ctrl with cur := some (.programRecord loc record) }
    reclaim := { s.reclaim with foreground := false } }

/-- Frame `f` is taken and the record of its job placed. -/
def takenAndPlaced (f : Frame) (rest : List Frame) (j : Job) (head : Nat) (s : State) : State :=
  placed j head
    { s with inbound := rest, engine := { s.engine with request := some (requestOf f s) } }

/-! ## The end of an array operation (R58) -/

/-- The array operation in progress is this one, no other waits or is held back, and no erase is
paused. -/
structure Running (s : State) (op : ArrayOp) : Prop where
  powered : s.powered = true
  rst : s.rst = false
  cur : s.ctrl.cur = some op
  empty : s.ctrl.queue = []
  held : s.ctrl.held = []
  unpaused : s.ctrl.paused = none

/-- The array controller with nothing to do. -/
def Controller.rest (c : Controller) : Controller := { c with cur := none }

/-- No claimant waits for the append point and no reclaim pass is due: no need is flagged, and the
erased count and this directory's BURIED total are off the thresholds of R70. -/
structure NothingDue (s : State) (dir : List Entry) : Prop where
  engine : s.log.engineWaits = false
  copy : s.log.copyWaits = false
  foreground : s.reclaim.foreground = false
  background : s.reclaim.background = false
  tidy : s.reclaim.tidyRemaining = 0
  erased : 4 ≤ erasedCount s.log.segs
  buried : buriedTotal dir < 64

/-- A reply slot is free, and so no notice is pending. -/
structure SlotOpen (s : State) : Prop where
  slot : s.replies.length < 8
  quiet : s.notices = []

/-- The engine's record `r`, of job `j` and request `q`, is being programmed at `loc`, with nothing
waiting behind it. -/
structure Programming (s : State) (j : Job) (q : Request) (r : Record) (loc : Loc) : Prop where
  running : Running s (.programRecord loc r)
  slot : SlotOpen s
  job : s.engine.job = some j
  request : s.engine.request = some q
  unbroken : s.engine.breaking = none
  grant : ∃ g, s.log.grant = some g ∧ g.claimant = .engine ∧ g.record = r

/-- The record stands in the array at `loc` (R52). -/
def written (loc : Loc) (r : Record) (array : List ArraySeg) : List ArraySeg :=
  array.modify loc.seg fun a =>
    { a with slots := a.slots ++ [{ off := loc.off, size := r.size, record := some r }] }

/-- A mark position of a segment as its completed program leaves it (R110). -/
def marked (seg : Nat) (p : MarkPos) (mark : Mark) (array : List ArraySeg) : List ArraySeg :=
  array.modify seg fun a => { a with marks := a.marks.put p mark }

/-- Bytes of a segment counted live. -/
def livened (seg n : Nat) (segs : List SegEntry) : List SegEntry :=
  segs.modify seg fun e => { e with live := e.live + n }

/-- Bytes of a segment no longer counted live. -/
def deadened (seg n : Nat) (segs : List SegEntry) : List SegEntry :=
  segs.modify seg fun e => { e with live := e.live - n }

/-! ## The forms of requests (R20, R38, R129, R180) -/

/-- A payload that is a well-formed PUT of this form with these inline bytes (R20). -/
def IsPut (payload : Bytes) (form : PutForm) (inlineBytes : Bytes) : Prop :=
  ∃ code t0 t1 e0 e1 e2 e3 : Byte,
    payload = BitVec.ofNat 8 form.key.length :: code :: t0 :: t1 :: e0 :: e1 :: e2 :: e3 ::
        (form.key ++ inlineBytes) ∧
      1 ≤ form.key.length ∧ form.key.length ≤ 32 ∧ form.total = t0.toNat + 256 * t1.toNat ∧
      form.total ≤ 4096 ∧ inlineBytes.length ≤ form.total ∧
      ((code = 0x00 ∧ form.condition = .always) ∨ (code = 0x01 ∧ form.condition = .ifAbsent) ∨
        (code = 0x02 ∧ leNat [e0, e1, e2, e3] ≠ 0 ∧
          form.condition = .ifVersion (leNat [e0, e1, e2, e3])))

/-- A payload that is a key with its length before it, the key of 1 to 32 bytes (R33, R37). -/
def IsKey (payload key : Bytes) : Prop :=
  payload = BitVec.ofNat 8 key.length :: key ∧ 1 ≤ key.length ∧ key.length ≤ 32

/-- A payload that is a DELETE of this key with this expected version (R31). -/
def IsDelete (payload key : Bytes) (expected : Nat) : Prop :=
  ∃ e0 e1 e2 e3 : Byte, payload = BitVec.ofNat 8 key.length :: e0 :: e1 :: e2 :: e3 :: key ∧
    1 ≤ key.length ∧ key.length ≤ 32 ∧ expected = leNat [e0, e1, e2, e3]

/-- A payload that is a LIST of this count and cursor (R38). -/
def IsList (payload : Bytes) (count : Nat) (cursor : Bytes) : Prop :=
  payload = BitVec.ofNat 8 count :: BitVec.ofNat 8 cursor.length :: cursor ∧
    1 ≤ count ∧ count ≤ 16 ∧ cursor.length ≤ 32

/-- The request `c` of this kind, with this well-formed payload, asks for a settings write of this id
and value; `own` is its own check, after the three common ones, that refuses it (R10, R136, R140,
R141, R144). -/
inductive AsksSetting (s : State) : Instr → Byte → Bytes → Byte → Bytes → Prop → Prop
  | setLimit (n l0 l1 : Byte) : n.toNat ≤ 7 → l0.toNat + 256 * l1.toNat ≤ 1024 →
      AsksSetting s .setLimit 0x1A [n, l0, l1] (0x10 + n) [l0, l1] False
  | persistSet (mask : Byte) :
      AsksSetting s .persist 0x22 [mask, 0x01] 0x01 [persistentLocks s ||| mask]
        (locksFinal s = true)
  | persistClear (mask : Byte) :
      AsksSetting s .persist 0x22 [mask, 0x00] 0x01 [persistentLocks s &&& ~~~mask]
        (locksFinal s = true)
  | setPassphrase (bytes : Bytes) : bytes.length = 16 →
      AsksSetting s .setPassphrase 0x25 bytes 0x21 bytes (policyOf s.prot.settings ≠ .unset)
  | setPlain :
      AsksSetting s .setPolicy 0x26 [0x01] 0x20 [0x01] (policyOf s.prot.settings ≠ .unset)
  | setProtected :
      AsksSetting s .setPolicy 0x26 [0x02] 0x20 [0x02]
        (policyOf s.prot.settings ≠ .unset ∨ passphraseOf s = none)
  | finalize (switches : Byte) : 1 ≤ switches.toNat → switches.toNat ≤ 3 →
      AsksSetting s .finalize 0x27 [switches] 0x22 [finalSwitches s ||| switches] False

/-- The commands that ask for a settings write, with their kinds. -/
def settingRequests : List (Instr × Byte) :=
  [(.setLimit, 0x1A), (.persist, 0x22), (.setPassphrase, 0x25), (.setPolicy, 0x26),
    (.finalize, 0x27)]

/-- The record of a settings write before its placement (R48, R129). -/
def systemRecord (id : Byte) (value : Bytes) : Record :=
  { kind := .system, ns := 0, tagged := false, key := [id], value := value, sn := 0 }

/-- A PUT condition holds of the effective state (R27). -/
def ConditionHolds (condition : Condition) (e : Effective) : Prop :=
  match condition, e with
  | .always, _ => True
  | .ifAbsent, .live _ => False
  | .ifAbsent, .buried _ => True
  | .ifAbsent, .absent => True
  | .ifVersion w, .live v => w = v
  | .ifVersion w, .buried v => w = v
  | .ifVersion _, .absent => False

/-- The checks of R28 that a complete PUT passes, but for the device state. -/
structure PutPasses (s : State) (ns : Nat) (form : PutForm) : Prop where
  group : s.group.state ≠ .failed
  unlocked : writeLocked s ns = false
  condition : ConditionHolds form.condition (effective s ns form.key)
  room : needsSlot s ns form.key = true → s.dir.length + s.group.reserved.length < 1024
  limit : newKey s ns form.key = true → liveCount s.dir ns + pendingNew s ns < limitOf s ns
  operations : s.group.state ≠ .noGroup → s.group.list.length < 32

/-- A PUT takes a reservation: inside a group, for a new key that has none (R8, R96). -/
def reserves (s : State) (ns : Nat) (key : Bytes) : Bool :=
  decide (s.group.state ≠ .noGroup) && needsSlot s ns key

/-- The job of a complete PUT (R29, R94, R96). -/
def putJob (s : State) (ns : Nat) (key value : Bytes) : Job :=
  { purpose := .put (reserves s ns key)
    record :=
      { kind := .value, ns := ns, tagged := decide (s.group.state = .opened), key := key
        value := value, sn := 0 } }

/-- The state with the reservation a PUT takes, when it takes one (R96). -/
def reserved (s : State) (ns : Nat) (key : Bytes) : State :=
  { s with
    group := { s.group with
      reserved := s.group.reserved ++ (if reserves s ns key then [(ns, key)] else []) } }

/-- An OPEN group has gone FAILED (R98). -/
def groupFailed (s : State) : State :=
  { s with
    group := { s.group with
      state := if s.group.state = .opened then .failed else s.group.state } }

/-! ## The link (R166 to R173) -/

/-- The commands of the link, each with the bytes the host sends in it, the operation byte first (R167 to
R173; spec/10, Link code values). A transaction that is cut is none of them. -/
inductive Sends : Instr → Bytes → Prop
  | send (kind tag : Byte) (payload : Bytes) (crc : BitVec 16) :
      Sends (.send kind tag payload crc) (0xA1 :: kind :: tag :: BitVec.ofNat 8 payload.length ::
        (payload ++ [crc.extractLsb' 8 8, crc.extractLsb' 0 8]))
  | sendBadLength (kind tag length : Byte) :
      Sends (.sendBadLength kind tag length) [0xA1, kind, tag, length]
  | fetch : Sends .fetch [0xA2]
  | take (number : Byte) : Sends (.take number) [0xA3, number]
  | poll : Sends .poll [0xA4]
  | cancel (tag : Byte) : Sends (.cancel tag) [0xA5, tag]
  | unknownOperation (operation : Byte) : Sends (.unknownOperation operation) [operation]
  | stillOpen (received : Bytes) : Sends (.transactionCut received true) received

/-- The port can start a transaction (R166, R176, R177). -/
structure PortReady (s : State) : Prop where
  powered : s.powered = true
  rst : s.rst = false
  phase : s.port.phase = .idle

/-- A transaction has completed: the port has received the operation byte and `received` bytes in all,
and drives this answer (R167). -/
def linked (op : Byte) (received : Nat) (collected answer : Bytes) (s : State) : State :=
  { s with
    sel := true
    port :=
      { phase := .answering, operation := some op, received := received, collected := collected
        answer := answer } }

/-- A CANCEL of this tag has completed, and no current request carries the tag: the inbound frames with
the tag are gone, and their number, then ACCEPTED, is driven (R161, R173). -/
def cancelled (tag : Byte) (s : State) : State :=
  let kept := s.inbound.filter fun f => f.tag ≠ tag
  linked 0xA5 2 [] [BitVec.ofNat 8 (s.inbound.length - kept.length), 0x00] { s with inbound := kept }

/-- The current request `r` has ended with this decided reply: queued at once with a slot free and no
notice pending, and else waiting for its slot in REPLY_WAIT (R149, R152, R157). -/
def decidedReply (r : Request) (status : Status) (payload : Bytes) (s : State) : State :=
  if s.replies.length < 8 ∧ s.notices = [] then concluded r status payload s
  else
    { s with engine := { s.engine with
      state := .replyWait, assembly := none, job := none, stream := none
      decided := [{ kind := r.kind + 0x80, tag := r.tag, status := status, payload := payload }] } }

/-- The array controller after a stream's end: its read outstanding will be discarded, and one held
back is not asked for (R42, R58; logs 31, 42). -/
def Controller.unwanted (c : Controller) : Controller :=
  { c with
    cur := c.cur.map ArrayOp.unwanted, queue := c.queue.map ArrayOp.unwanted
    held := c.held.filter fun op => decide (op.requester ≠ .engine) }

/-! ## Thresholds, passes and copies (R49, R55, R70 to R76, R105) -/

/-- The background flag after a test of the thresholds over this table and directory (R70). -/
def flagAfterTest (flag : Bool) (segs : List SegEntry) (dir : List Entry) : Bool :=
  let erased := (segs.filter fun e => e.state = .erased).length
  let buried := (dir.filter fun e => !e.isLive).length
  if (6 ≤ erased ∧ buried < 32) ∨ reclaimable segs = 0 ∨ ∀ e ∈ segs, e.state ≠ .filled then false
  else if erased ≤ 3 ∨ 64 ≤ buried then true
  else flag

/-- The background flag has been tested (R70). -/
def flagTested (segs : List SegEntry) (dir : List Entry) (s : State) : State :=
  { s with
    reclaim := { s.reclaim with background := flagAfterTest s.reclaim.background segs dir } }

/-- A pass over segment `w` has begun: the segment is RECLAIMING, the walk stands at 64, and the RECLAIM
mark is asked for, which leaves this controller (R72, R73). -/
def passBegun (w : Nat) (ctrl : Controller) (s : State) : State :=
  { s with
    ctrl := ctrl
    log := { s.log with segs := s.log.segs.modify w fun e => { e with state := .reclaiming } }
    reclaim := { s.reclaim with
      state := .copying, victim := some w, position := 64, copy := none, bytesPlaced := 0 } }

/-- The next victim is segment `w`, which carries no RECLAIM mark yet (R73, R120). -/
structure NextVictim (segs : List SegEntry) (w : Nat) : Prop where
  chosen : chooseVictim segs = some w
  unmarked : (segAt segs w).reclaimMarked = false

/-- The group tag a copy of this record is placed with (R76). -/
def copyTag (s : State) (r : Record) : Bool :=
  r.tagged && decide (s.group.state ≠ .noGroup) &&
    match s.group.firstSn with
    | some first => decide (first ≤ r.sn)
    | none => false

/-- The copy in hand `c`, with record `r` in the copy buffer, has been granted the free append point and
placed in the head with the SN it had; its program is asked for, which leaves this controller (R49, R55,
R76). -/
def copyGranted (c : Copy) (r : Record) (head : Nat) (ctrl : Controller) (s : State) : State :=
  let loc : Loc := { seg := head, off := 64 + (segAt s.log.segs head).used }
  let record := { r with tagged := copyTag s r }
  { s with
    ctrl := ctrl
    log := { s.log with
      copyWaits := false
      grant := some
        { claimant := .reclaim, record := record, retry := false, stage := .programming loc
          abandoned := false }
      segs := s.log.segs.modify head fun e => { e with used := e.used + r.size } }
    reclaim := { s.reclaim with
      copy := some { c with buffer := some r, placed := some loc, tagged := record.tagged }
      bytesPlaced := s.reclaim.bytesPlaced + r.size } }

/-! ## Retirement and entry into READ_ONLY (R61, R62, R84 to R86) -/

/-- The descriptor fields of a segment out of use (R53, R84). -/
def retired (v : Nat) (segs : List SegEntry) : List SegEntry :=
  segs.modify v fun e => { e with state := .retired, stamp := none, used := 0, live := 0, pin := false }

/-- The SEGMENT_RETIRED notice of a segment just retired (R85). -/
def retiredNotice (v : Nat) (cause : RetireCause) (segs : List SegEntry) : Notice :=
  .segmentRetired v cause (segAt segs v).eraseCount (inUse (retired v segs)) 1

/-- The reclaim unit has retired its victim, and its pass has completed with nothing due after it: the
RETIRED mark is asked for, BURIED entries there have left the directory, and SEGMENT_RETIRED is raised
(R84 to R86). -/
def victimRetired (v : Nat) (cause : RetireCause) (s : State) : State :=
  replied (retiredNotice v cause s.log.segs).out
    { s with
      ctrl := { s.ctrl with cur := some (.retiredMark v) }
      dir := s.dir.filter fun e => e.isLive || decide (e.loc.seg ≠ v)
      log := { s.log with segs := retired v s.log.segs }
      reclaim := { s.reclaim with
        state := .idle, victim := none, position := 64, copy := none, bytesPlaced := 0 } }

/-- What an erase that failed leaves: marks as before or none valid, and each record whole or torn, by
these choices (R127; log 10). -/
def eraseLeft (keepsMarks : Bool) (keepsRecord : Nat → Bool) (residue : Nat) (a : ArraySeg) : ArraySeg :=
  { marks := if keepsMarks then a.marks else a.marks.lost
    slots := a.slots.map fun t =>
      if keepsRecord t.off then t else { t with record := none, residue := residue } }

/-- The device has entered READ_ONLY after a retirement: an OPEN group is FAILED, no record has a need
for space, and READ_ONLY is raised; the background flag is as a test of the thresholds leaves it with
fewer than 4 segments in use (R61, R62, R70, R98; log 44). -/
def readOnlyByRetirement (s : State) : State :=
  { groupFailed s with
    log := { s.log with device := .readOnly, engineWaits := false }
    reclaim := { s.reclaim with
      foreground := false, background := decide (reclaimable s.log.segs ≠ 0) } }

/-- The READ_ONLY notice of this state (R62). -/
def readOnlyNotice (cause : RoCause) (s : State) : Notice :=
  .readOnly cause (inUse s.log.segs) s.log.sn

/-! ## What mount's scan finds (R114, R127; log 41) -/

/-- The greatest SN of the record images that a region with these contents, read from this offset on
with these places failing, holds at other multiples of 4 than a record's start: below 2^32 - 1 (R49),
and none over erased space, nor over a torn record with erased space behind it (R114). -/
structure ImageSns (images : List Slot → Nat → List Nat → Nat) : Prop where
  below : ∀ slots start bad, images slots start bad < 4294967295
  erased : ∀ start bad, images [] start bad = 0
  torn : ∀ t start bad, t.record = none → images [t] start bad = 0

/-- A scan of this region with these places failing takes the greatest SN found from `before` to `after`:
the greatest of it, of the records that pass in the region, and of the images there (R114). -/
def ScanLeaves (images : List Slot → Nat → List Nat → Nat) (s : State) (region : Loc) (bad : List Nat)
    (before after : Nat) : Prop :=
  let slots := (s.array.getD region.seg ArraySeg.blank).slots.filter fun t =>
    decide (region.off ≤ t.off)
  let image := images slots region.off bad
  let passes (t : Slot) (r : Record) : Prop :=
    t.record = some r ∧ t.off ∉ bad ∧ r.key.length ≤ 32 ∧ r.value.length ≤ 4096 ∧
      t.off + r.size ≤ 16384
  before ≤ after ∧ image ≤ after ∧ (∀ t ∈ slots, ∀ r, passes t r → r.sn ≤ after) ∧
    (after = before ∨ after = image ∨ ∃ t ∈ slots, ∃ r, passes t r ∧ r.sn = after)

/-! ## Resets (R108, R165, R176) -/

/-- What a reset leaves with no array operation in progress: everything as after power-on, but for the
reset kind, the lines, the port that waits for SEL to be released, the failed-unlock counter, the array
and what is the model's own. -/
def resetTo (kind : ResetKind) (fails : Nat) (s : State) : State :=
  { State.reset with
    resetKind := kind
    sel := s.sel
    port := if s.sel then { State.reset.port with phase := .abandoned } else State.reset.port
    prot := { State.reset.prot with unlockFails := fails }
    array := s.array
    free := s.free
    pending := s.pending }

/-- The same while the part is held in reset or has no power: mount has not started. -/
def heldReset (kind : ResetKind) (s : State) : State :=
  { resetTo kind 0 s with mount := none, ctrl := { State.reset.ctrl with cur := none } }

/-! ## Invariants -/

/-- The reply sequence numbers from head to tail, for a queue of this length before this counter
(R156). -/
def consecutive (counter : Byte) (length : Nat) : List Byte :=
  (List.range length).map fun i => counter - BitVec.ofNat 8 length + BitVec.ofNat 8 i

/-- The queues within their sizes, the reply numbers consecutive up to the counter, and no notice
pending beside a free slot (R148, R156, R157). -/
structure QueueInv (s : State) : Prop where
  inbound : s.inbound.length ≤ 8
  replies : s.replies.length ≤ 8
  numbers : s.replies.map Reply.seq = consecutive s.replySeq s.replies.length
  notices : s.replies.length < 8 → s.notices = []

/-- A directory in the order of R2, with one entry for each name (R5). -/
def ordered (dir : List Entry) : Prop :=
  dir.Pairwise fun a b => nameLt a.ns a.key b.ns b.key = true

/-- The directory, and the one mount is rebuilding, are in order (R2, R5). -/
structure DirInv (s : State) : Prop where
  dir : ordered s.dir
  mounting : ∀ m, s.mount = some m → ordered m.dir

/-- A PUT, DELETE or COMMIT whose record's program is in progress has the directory slots it needs: its
name's entry or a free slot, and for a COMMIT an entry or a reservation of every staged name (R7, R8,
R14). Log 43 says what else can come about. -/
structure SlotsHeld (s : State) : Prop where
  single : ∀ loc r g j, s.ctrl.cur = some (.programRecord loc r) → s.log.grant = some g →
    s.engine.job = some j → (j.purpose = .delete ∨ ∃ b, j.purpose = .put b) → g.record.tagged = false →
    lookup s.dir g.record.ns g.record.key = none →
    s.dir.length + s.group.reserved.length < 1024
  commit : ∀ loc r g j, s.ctrl.cur = some (.programRecord loc r) → s.log.grant = some g →
    s.engine.job = some j → j.purpose = .commit → ∀ p ∈ s.group.list,
    (lookup s.dir p.ns p.key).isSome = true ∨ (p.ns, p.key) ∈ s.group.reserved

/-- The counters and the context stay within their ranges (R82, R142, R153). -/
structure RangeInv (s : State) : Prop where
  fails : s.prot.unlockFails ≤ 8
  ns : s.engine.ns ≤ 7
  watermark : s.engine.watermark ≤ 7
  pauses : s.ctrl.pauseCount ≤ 16

/-- An operation of mount (spec/06, R58). -/
def ArrayOp.ofMount (op : ArrayOp) : Bool := decide (op.requester = .mount)

/-- Every block has one request outstanding at the array controller, but for the log manager's record
program and FILLED mark, which may stand together; mount's requests never wait (R58). -/
structure ControllerInv (c : Controller) : Prop where
  apart : c.outstanding.Pairwise fun a b => a.requester ≠ b.requester ∨ a.pairs b = true
  mount : ∀ op ∈ c.queue ++ c.held, op.ofMount = false

/-- A record within the bounds of R2 and R3. -/
def Record.small (r : Record) : Prop := r.key.length ≤ 32 ∧ r.value.length ≤ 4096

/-- At most one segment of a table is OPEN, and none has more bytes used than its record area has (R43,
R45, R47). -/
structure TableInv (segs : List SegEntry) : Prop where
  oneOpen : countSegs segs .opened ≤ 1
  used : ∀ e ∈ segs, e.used ≤ 16320

/-- The table mount rebuilds, and what it is rebuilt from, within the same bounds; while mount opens a
head none is OPEN (R112, R119 to R124). -/
structure MountTableInv (m : Mount) (cur : Option ArrayOp) : Prop where
  table : TableInv m.segs
  settings : ∀ t ∈ m.settings, t.value.length ≤ 4096
  ends : ∀ e ∈ m.ends, e.off ≤ 16384
  walk : ∀ todo off, m.phase = .walk todo off → off ≤ 16384
  opening : ∀ i stamp, cur = some (.mountOpenedMark i stamp) → countSegs m.segs .opened = 0

/-- The segment table within its bounds, with every record in hand and in the array within those of R2
and R3 (R43, R45, R47). -/
structure SegInv (s : State) : Prop where
  table : TableInv s.log.segs
  job : ∀ j, s.engine.job = some j → j.record.small
  assembly : ∀ a, s.engine.assembly = some a → a.form.key.length ≤ 32 ∧ a.form.total ≤ 4096
  grant : ∀ g, s.log.grant = some g → g.record.small
  copy : ∀ c r, s.reclaim.copy = some c → c.buffer = some r → r.small
  settings : ∀ t ∈ s.prot.settings, t.value.length ≤ 4096
  array : ∀ a ∈ s.array, ∀ t ∈ a.slots, ∀ r, t.record = some r → r.small
  programs : ∀ loc r, .programRecord loc r ∈ s.ctrl.cur.toList ++ s.ctrl.queue ++ s.ctrl.held → r.small
  mountOps : ∀ op ∈ s.ctrl.queue ++ s.ctrl.held, op.ofMount = false
  mount : ∀ m, s.mount = some m → MountTableInv m s.ctrl.cur

/-- No segment has more bytes live than used (R47). -/
def LiveWithinUsed (segs : List SegEntry) : Prop := ∀ e ∈ segs, e.live ≤ e.used

/-- What the completion of the program in progress may count live lies among the dead bytes of the
segment it is programmed in; a COMMIT's pending list has no SUPERSEDED PUT (R47, R52). -/
structure ClaimFits (s : State) : Prop where
  engine : ∀ loc r g, s.ctrl.cur = some (.programRecord loc r) → s.log.grant = some g →
    g.claimant = .engine → (segAt s.log.segs loc.seg).live + g.record.size ≤
      (segAt s.log.segs loc.seg).used
  setting : ∀ loc r g j, s.ctrl.cur = some (.programRecord loc r) → s.log.grant = some g →
    s.engine.job = some j → (j.purpose = .setting ∨ ∃ a b c, j.purpose = .formatRewrite a b c) →
    g.record.key ≠ []
  commit : ∀ j, s.engine.job = some j → j.purpose = .commit →
    ∀ p ∈ s.group.list, p.isPut = true → p.standing = .current
  copy : ∀ loc r g c, s.ctrl.cur = some (.programRecord loc r) → s.log.grant = some g →
    g.claimant = .reclaim → s.reclaim.copy = some c →
    (segAt s.log.segs loc.seg).live + c.size ≤ (segAt s.log.segs loc.seg).used
  mount : ∀ m, s.mount = some m → LiveWithinUsed m.segs

/-- While the device is MOUNTING every block but the inbound queue, the port and mount itself stands as
after reset, and the array controller works for mount alone (R66, R109). -/
structure MountingInv (s : State) : Prop where
  engine : s.engine = State.reset.engine
  replies : s.replies = []
  replySeq : s.replySeq = 0
  notices : s.notices = []
  dir : s.dir = []
  group : s.group = State.reset.group
  prot : s.prot = { State.reset.prot with unlockFails := s.prot.unlockFails }
  log : s.log = State.reset.log
  reclaim : s.reclaim = State.reset.reclaim
  queue : s.ctrl.queue = []
  held : s.ctrl.held = []
  unpaused : s.ctrl.paused = none
  working : ∀ op, s.ctrl.cur = some op → op.ofMount = true

end Sys2Proof.Machine
end

