-- ==== Sys2Proof/Certificates/Slice0/Obligations.lean ====
section
/-!
DEFINITION. The statements about the part, for the provers. Terms are those of Sys2Proof/Safety.lean;
`exec c s = .next t` with `t` written as an update of `s` says also that every other field stands.
-/

open Sys2Proof Sys2Proof.Machine

/-! ## The queue of commands, and what every command keeps -/

/-- The command at the front of the queue runs on the state with the queue's rest, and an empty
queue idles. The queue and the idling are the model's choice (log 1). -/
def Obligations.StepRunsFrontCommand : Prop :=
  (∀ (c : Instr) (s : State), step { s with pending := c :: s.pending } = exec c s) ∧
    ∀ s : State, s.pending = [] → step s = .next s

/-- Every command completes with a next state, and leaves the queue of commands alone. No command
ends in a fault or a refusal. That a command whose event cannot happen in the state completes too,
changing nothing, is the model's choice (log 2). -/
def Obligations.EveryCommandCompletes : Prop :=
  ∀ (c : Instr) (s : State), ∃ t, exec c s = .next t ∧ t.pending = s.pending

/-- The state after reset meets the invariants. -/
def Obligations.ResetStateMeetsTheInvariants : Prop :=
  QueueInv State.reset ∧ DirInv State.reset ∧ RangeInv State.reset ∧ MountingInv State.reset ∧
    ControllerInv State.reset.ctrl ∧ SegInv State.reset

/-- Every step keeps the queues within 8, the reply numbers consecutive modulo 256 up to the
counter, and no notice pending beside a free reply slot (R148, R156, R157). Every step keeps one
request of each block outstanding at the array controller, but for a record's program beside a
FILLED mark, so that at most three wait (R58; that a block holds its further requests back is the
model's choice, log 42). -/
def Obligations.EveryStepKeepsTheQueues : Prop :=
  (∀ s t : State, QueueInv s → step s = .next t → QueueInv t) ∧
  ((∀ s t : State, ControllerInv s.ctrl → step s = .next t → ControllerInv t.ctrl) ∧
     ∀ (c : Controller) op, ControllerInv c → c.cur = some op → op.ofMount = false →
       (c.queue ++ c.paused.toList.map ArrayOp.erase).length ≤ 3)

/-- Every step keeps the directory, and the one mount is rebuilding, strictly in the order of R2, so
that no name has two entries (R2, R5). Every step keeps entries and reservations together at 1,024
or less, where a record in program has its slot; mount rebuilds a directory of 1,024 entries at most
(R7, R8, R118). A COMMIT without its slots is the corner of log 43. -/
def Obligations.EveryStepKeepsTheDirectoryOrdered : Prop :=
  (∀ s t : State, DirInv s → step s = .next t → DirInv t) ∧
  ((∀ s t : State, DirInv s → s.dir.length + s.group.reserved.length ≤ 1024 → SlotsHeld s →
     (∀ m, s.mount = some m → m.dir.length + s.group.reserved.length ≤ 1024) → step s = .next t →
     t.dir.length + t.group.reserved.length ≤ 1024) ∧
     ∀ m : Mount, m.rebuild.dir.length ≤ 1024)

/-- Every step keeps the failed-unlock counter at 8 or less, namespace and watermark of the context
at 7 or less, and the pauses of an erase at 16 or less (R82, R142, R153). Every step keeps at most
one segment OPEN, the bytes used of each at 16,320 or less, and, where what a completed program
counts live lies among dead bytes, the live bytes at no more than the used (R43, R45, R47). -/
def Obligations.EveryStepKeepsTheRanges : Prop :=
  (∀ s t : State, RangeInv s → step s = .next t → RangeInv t) ∧
  ((∀ s t : State, SegInv s → step s = .next t → SegInv t) ∧
     ∀ s t : State, SegInv s → LiveWithinUsed s.log.segs → ClaimFits s → step s = .next t →
       LiveWithinUsed t.log.segs)

/-- While the device is MOUNTING, every step leaves each block but the inbound queue, the port, the
array and mount itself as after reset (R66, R109). -/
def Obligations.EveryStepHoldsTheBlocksWhileMounting : Prop :=
  ∀ s t : State, (s.log.device = .mounting → MountingInv s) → step s = .next t →
    t.log.device = .mounting → MountingInv t

/-- Only a SELECT, or the accepted TAKE behind which a breaking SELECT waits, changes the context;
otherwise it stands, or a reset has happened, which leaves the device MOUNTING (R24, R108, R153).
That POWER_LOSS does as a reset does is the model's choice, log 32. -/
def Obligations.OnlySelectChangesTheContext : Prop :=
  ∀ (c : Instr) (s t : State), exec c s = .next t → c ≠ .select →
    (∀ number f, c = .take number → s.engine.breaking = some f → f.kind ≠ 0x02) →
    (t.engine.ns = s.engine.ns ∧ t.engine.mode = s.engine.mode ∧
        t.engine.watermark = s.engine.watermark) ∨
      (t.log.device = .mounting ∧ t.engine.ns = 0 ∧ t.engine.mode = .full ∧ t.engine.watermark = 0)

/-- Only the completions of programs, marks and erases change the array, and the resets, which abort
the operation in progress (R43, R44, R58). That POWER_LOSS aborts it as a reset does is the model's
choice, log 32. -/
def Obligations.OnlyCompletionsAndResetsChangeTheArray : Prop :=
  ∀ (c : Instr) (s t : State), exec c s = .next t → s.engine.breaking = none →
    c ∉ [.powerOn, .powerLoss, .rstAsserted .full, .rstAsserted .between, .reset,
      .recordProgramDone true, .recordProgramDone false, .openedMarkDone true,
      .openedMarkDone false, .filledMarkDone true, .filledMarkDone false, .reclaimMarkDone true,
      .reclaimMarkDone false, .eraseMarkDone true, .eraseMarkDone false, .eraseDone true,
      .eraseDone false, .erasedMarkDone true, .erasedMarkDone false, .retiredMarkDone true,
      .retiredMarkDone false, .mountFilledMarkDone true, .mountFilledMarkDone false,
      .mountEraseDone true, .mountEraseDone false, .mountErasedMarkDone true,
      .mountErasedMarkDone false, .mountRetiredMarkDone true, .mountRetiredMarkDone false,
      .mountOpenedMarkDone true, .mountOpenedMarkDone false] →
    t.array = s.array

/-- Once set, a lockdown flag stays set until a reset, and a reset clears every flag of both sets
(R132, R135), the device MOUNTING (R66). POWER_LOSS is none of the reset kinds of R108: that it
clears both sets too and leaves the device MOUNTING is the model's choice, log 32. -/
def Obligations.LockdownsHoldUntilReset : Prop :=
  (∀ (c : Instr) (s t : State), exec c s = .next t →
    t.prot.lockdowns &&& s.prot.lockdowns = s.prot.lockdowns ∨
      (t.prot.lockdowns = 0 ∧ t.prot.sessionLocks = 0 ∧ t.log.device = .mounting)) ∧
    ∀ s : State,
      let clears (c : Instr) : Prop :=
        ∃ t, exec c s = .next t ∧ t.prot.lockdowns = 0 ∧ t.prot.sessionLocks = 0 ∧
          t.log.device = .mounting
      clears .powerOn ∧ (s.powered = true → clears .powerLoss) ∧
        (s.powered = true → s.rst = false → clears (.rstAsserted .full)) ∧
        ∀ f rest, AtTake s f rest → f.kind = 0x3F → f.payload = [] → clears .reset

/-! ## Resets -/

/-- The state after reset is MOUNTING with kind POWER_ON, and every block has its reset value (R58,
R66, R67, R91, R132, R142, R153, R156, R158, R165, R176). -/
def Obligations.ResetStateHoldsResetValues : Prop :=
  let s := State.reset
  s.resetKind = .powerOn ∧ s.log.device = .mounting ∧ s.log.segs = [] ∧ s.log.grant = none ∧
    s.engine.state = .idle ∧ s.engine.request = none ∧ s.engine.assembly = none ∧
    s.engine.stream = none ∧ s.engine.decided = [] ∧ s.engine.ns = 0 ∧ s.engine.mode = .full ∧
    s.engine.watermark = 0 ∧ s.inbound = [] ∧ s.replies = [] ∧ s.replySeq = 0 ∧ s.notices = [] ∧
    s.dir = [] ∧ s.group = { state := .noGroup, firstSn := none, list := [], reserved := [] } ∧
    s.prot.settings = [] ∧ s.prot.sessionLocks = 0 ∧ s.prot.lockdowns = 0 ∧ s.prot.unlockFails = 0 ∧
    s.ctrl.queue = [] ∧ s.ctrl.paused = none ∧ s.ctrl.pauseCount = 0 ∧ s.reclaim.state = .idle ∧
    s.reclaim.victim = none ∧ s.reclaim.copy = none ∧ s.reclaim.bytesPlaced = 0 ∧
    s.reclaim.foreground = false ∧ s.reclaim.background = false ∧ s.reclaim.tidyRemaining = 0 ∧
    s.port.phase = .idle ∧ s.port.received = 0 ∧ atn s = false

/-- The four resets with no array operation in progress, each leaving exactly the reset state but
for what R108, R142 and R176 keep (R165). That POWER_LOSS leaves the reset state at once, and what a
power-on with RST asserted leaves, are the model's choice (logs 32, 33). -/
def Obligations.ResetsLeaveTheResetState : Prop :=
  ∀ s : State, s.ctrl.cur = none → s.ctrl.paused = none →
    (exec .powerOn s =
        .next (if s.rst then { heldReset .powerOn s with rst := true } else resetTo .powerOn 0 s)) ∧
      (s.powered = true → exec .powerLoss s =
        .next { heldReset s.resetKind s with powered := false, rst := s.rst }) ∧
      (s.powered = true → s.rst = false → exec (.rstAsserted .full) s =
        .next { heldReset .rstLine s with rst := true }) ∧
      ∀ f rest, AtTake s f rest → f.kind = 0x3F → exec .reset s =
        .next (if f.payload = [] then resetTo .resetRequest s.prot.unlockFails s
          else answered f rest .badRequest [] s)

/-- A reset during a record's program leaves a torn record, and during an array read nothing; the
array is otherwise as it stood (R58). RST's pulse widths and its release: a short pulse does
nothing, and at the release mount starts with its first read, and the port starts no transaction
before SEL has been released when it is asserted then (R108, R176, R177). That a release without
power only lowers the line, and that RST_RELEASED with RST released changes nothing, are the model's
choice (logs 2, 32, 33). -/
def Obligations.ResetAbortsAndMountStartsAtRelease : Prop :=
  (∀ s : State, s.powered = true → s.rst = false → s.ctrl.paused = none →
     (∀ loc r, s.ctrl.cur = some (.programRecord loc r) →
       exec (.rstAsserted .full) s =
         .next { heldReset .rstLine s with
           rst := true
           free := s.free + 1
           array := s.array.modify loc.seg fun a =>
             { a with slots := a.slots ++
                 [{ off := loc.off, size := r.size, record := none, residue := s.free }] } }) ∧
       ∀ loc, s.ctrl.cur = some (.copyRead loc) →
         exec (.rstAsserted .full) s = .next { heldReset .rstLine s with rst := true }) ∧
  (∀ s : State,
     exec (.rstAsserted .short) s = .next s ∧
       (s.powered = true → s.rst = true → s.ctrl.cur = none →
         exec .rstReleased s =
           .next { s with rst := false
                          port := if s.sel then { State.reset.port with phase := .abandoned }
                                  else State.reset.port
                          mount := State.reset.mount
                          ctrl := { s.ctrl with cur := some .mountRead } }) ∧
       (s.powered = false → s.rst = true → exec .rstReleased s = .next { s with rst := false }) ∧
       (s.rst = false → exec .rstReleased s = .next s))

/-- While RST is asserted no command of the engine or of the array changes anything, and a command
of the link only leaves SEL asserted (R176, R177; log 14). -/
def Obligations.HeldInResetNothingChanges : Prop :=
  ∀ (c : Instr) (s : State), s.rst = true →
    c ≠ .rstReleased → c ≠ .powerOn → c ≠ .powerLoss → c ≠ .selReleased →
    (∀ bytes, Sends c bytes → exec c s = .next { s with sel := true }) ∧
      ((∀ bytes, ¬ Sends c bytes) → exec c s = .next s)

/-! ## The link -/

/-- SEND is judged by length, CRC and room, in this order (R169). -/
def Obligations.SendIsJudgedInOrder : Prop :=
  ∀ (s : State) (kind tag : Byte), PortReady s →
    (∀ (payload : Bytes) (crc : BitVec 16), payload.length ≤ 248 →
      let body := kind :: tag :: BitVec.ofNat 8 payload.length :: payload
      let verdict : Byte :=
        if crc ≠ crc16 body then 0x02 else if 8 ≤ s.inbound.length then 0x01 else 0x00
      exec (.send kind tag payload crc) s =
        .next (linked 0xA1 (6 + payload.length)
          (body ++ [crc.extractLsb' 8 8, crc.extractLsb' 0 8]) [verdict]
          { s with inbound := if verdict = 0x00 then s.inbound ++ [⟨kind, tag, payload⟩]
                              else s.inbound })) ∧
      (∀ length : Byte, 248 < length.toNat →
        ∃ t, exec (.sendBadLength kind tag length) s = .next t ∧ sdo t = some ([], 0x03) ∧
          t = { s with sel := true, port := t.port } ∧ t.port.phase = .tooLong ∧
          t.port.operation = some 0xA1 ∧ t.port.received = 4) ∧
      ∀ received, s.sel = false → s.port = State.reset.port →
        exec (.transactionCut (0xA1 :: received)) s = .next s

/-- FETCH drives the head frame, or EMPTY, and changes nothing but the port: 0xFF on the operation
byte, then the answer, then 0xFF, each byte's most significant bit first (R166, R167, R170). -/
def Obligations.FetchReadsTheHead : Prop :=
  ∀ s : State, PortReady s →
    let answer : Bytes :=
      match s.replies with
      | [] => [0x05]
      | r :: _ =>
        let body := [r.out.kind, r.out.tag, r.seq, r.out.status.code,
          BitVec.ofNat 8 r.out.payload.length] ++ r.out.payload
        body ++ [(crc16 body).extractLsb' 8 8, (crc16 body).extractLsb' 0 8]
    exec .fetch s = .next (linked 0xA2 1 [] answer s) ∧
      sdo (linked 0xA2 1 [] answer s) = some (answer, 0xFF) ∧
      atn (linked 0xA2 1 [] answer s) = atn s ∧
      ∀ i k, k < 8 →
        sdoBit (linked 0xA2 1 [] answer s) (8 * i + k) =
          some (((0xFF :: answer).getD i 0xFF).getMsbD k)

/-- TAKE's three verdicts. With no notice pending and no reply or chunk waiting the freed slot stays
free (R171). The slot an accepted TAKE frees goes to the oldest pending notice, and else to the
reply that waits (R157). So it does in every engine state with a notice pending. In STREAMING with
none the slot goes to the chunk that waits: the read of the next chunk is asked for, or with LAST
the pin is released, which in PIN_WAIT lets the ERASE mark be asked for (R35, R80, R157; log 50 for
the moment of the read). Behind an INCOMPLETE reply the frame that broke the assembly is handled as
from IDLE once that reply has entered, here a LOCKDOWN, whose own reply waits for the next slot
(R24, R157; log 45). -/
def Obligations.TakeRemovesTheHeadAndServesWaiting : Prop :=
  (∀ (s : State) (number : Byte), PortReady s →
     (s.replies = [] → exec (.take number) s = .next (linked 0xA3 2 [] [0x05] s)) ∧
       ∀ r rest, s.replies = r :: rest →
         (r.seq ≠ number → exec (.take number) s = .next (linked 0xA3 2 [] [0x04] s)) ∧
           (r.seq = number → s.notices = [] → s.engine.state ≠ .replyWait →
             s.engine.state ≠ .streaming →
             exec (.take number) s =
               .next { linked 0xA3 2 [] [0x00] s with replies := rest })) ∧
  (∀ (s : State) (r : Reply) (rest : List Reply) (o : Out), PortReady s → s.replies = r :: rest →
     rest.length = 7 → s.engine.state = .replyWait → s.engine.decided = [o] →
     s.engine.breaking = none →
     let freed := { linked 0xA3 2 [] [0x00] s with replies := rest }
     (∀ n more, s.notices = n :: more →
       exec (.take r.seq) s = .next (replied n.out { freed with notices := more })) ∧
       (s.notices = [] →
         exec (.take r.seq) s = .next (replied o { freed with engine := s.engine.toIdle }))) ∧
  (∀ (s : State) (r : Reply) (rest : List Reply), PortReady s → s.replies = r :: rest →
     rest.length = 7 →
     let freed := { linked 0xA3 2 [] [0x00] s with replies := rest }
     let after (u : State) : Prop := exec (.take r.seq) s = .next u
     (∀ n more, s.notices = n :: more →
       (s.engine.state = .replyWait → s.engine.decided ≠ []) →
       after (replied n.out { freed with notices := more })) ∧
     (∀ q st data, s.notices = [] → s.engine.state = .streaming → s.engine.request = some q →
       s.engine.stream = some st → st.chunk = some data →
       let chunk (last : Nat) (t : State) : State :=
         replied
           { kind := q.kind + 0x80, tag := q.tag, status := .ok
             payload := le 4 st.version ++ le 2 st.length ++
               le 2 (st.sent % 8192 + (if st.sent = 0 then 16384 else 0) + last) ++ data } t
       let ended := { freed with
         engine := s.engine.toIdle
         log := { s.log with
           segs := s.log.segs.modify st.loc.seg fun e => { e with pin := false } } }
       (240 < st.length - st.sent → s.ctrl.cur = none → s.ctrl.queue = [] →
         after (chunk 0 { freed with
           ctrl := { s.ctrl with cur := some (.chunkRead st.loc true) }
           engine := { s.engine with
             stream := some { st with sent := st.sent + 240, chunk := none } } })) ∧
       (st.length - st.sent ≤ 240 →
         (s.reclaim.state = .pinWait → s.reclaim.victim ≠ some st.loc.seg) →
         after (chunk 32768 ended)) ∧
       (st.length - st.sent ≤ 240 → s.reclaim.state = .pinWait →
         s.reclaim.victim = some st.loc.seg → (segAt s.log.segs st.loc.seg).suspect = false →
         s.ctrl.cur = none → s.ctrl.queue = [] → s.ctrl.paused = none →
         after (chunk 32768 { ended with
           reclaim := { s.reclaim with state := .erasing }
           ctrl := { s.ctrl with cur := some (.eraseMark st.loc.seg) } }))) ∧
     ∀ o f (mask : Byte), s.notices = [] → s.engine.state = .replyWait → s.engine.decided = [o] →
       s.engine.breaking = some f → f.kind = 0x21 → f.payload = [mask] →
       let locks := s.prot.lockdowns ||| mask
       after (replied o { freed with
         prot := { s.prot with lockdowns := locks }
         engine := { s.engine.toIdle with
           state := .replyWait, request := some (requestOf f s)
           decided := [{ kind := 0xA1, tag := f.tag, status := .ok, payload := [locks] }] } }))

/-- POLL drives the 9 bytes of the link status record and changes nothing but the port; during
MOUNTING, in the states of `MountingInv`, it shows engine, group and reclaim unit as after reset,
and a notice flag shows only beside a full reply queue (R172). -/
def Obligations.PollReadsTheStatusRecord : Prop :=
  ∀ s : State, PortReady s →
    let engine : Byte := if s.log.device = .mounting then 0x00 else s.engine.state.code
    let fields : Bytes :=
      [s.log.device.code, engine, BitVec.ofNat 8 (8 - s.inbound.length),
        BitVec.ofNat 8 s.replies.length, noticeMask s, s.group.state.code, s.reclaim.state.code]
    let answer := fields ++ [(crc16 fields).extractLsb' 8 8, (crc16 fields).extractLsb' 0 8]
    exec .poll s = .next (linked 0xA4 1 [] answer s) ∧
      (s.log.device = .mounting → MountingInv s →
        fields = [0x00, 0x00, BitVec.ofNat 8 (8 - s.inbound.length), 0x00, 0x00, 0x00, 0x00]) ∧
      (∀ i, i < 5 → ((noticeMask s).getLsbD i = true ↔
        ∃ n ∈ s.notices, n.kind = 0xF0 + BitVec.ofNat 8 i)) ∧
      (QueueInv s → noticeMask s ≠ 0 → s.replies.length = 8)

/-- CANCEL removes every queued frame with its tag, and answers their number and ACCEPTED, whatever
else it reaches; where no current request has the tag it does nothing more (R161). That a frame which
broke an assembly, and waits in REPLY_WAIT behind a PUT of another tag, is neither counted nor
withdrawn is the model's choice, log 45. -/
def Obligations.CancelRemovesQueuedFrames : Prop :=
  ∀ (s : State) (tag : Byte), PortReady s →
    (∃ t, exec (.cancel tag) s = .next t ∧ t.inbound = (cancelled tag s).inbound ∧
        t.port = (cancelled tag s).port) ∧
      ((∀ r, s.engine.request = some r → r.tag ≠ tag) →
        exec (.cancel tag) s = .next (cancelled tag s))

/-- CANCEL reaches the current request by where it stands: an assembly, a stream at any point of a
read or with a chunk that waits for a slot, a record not placed yet; in REPLY_WAIT it changes
nothing, even where a frame that broke the assembly waits with its tag (R41, R42, R53, R162; log 45
marks this last choice, and logs 31 and 42 what becomes of the stream's read). CANCEL of a stream
whose pin a pass waits for in PIN_WAIT releases it, and the victim's ERASE mark is asked for, at
once or behind the stream's read, before the CANCELLED reply is queued (R42, R80). -/
def Obligations.CancelReachesTheCurrentRequest : Prop :=
  (∀ (s : State) (r : Request), PortReady s → s.engine.request = some r →
     let t := cancelled r.tag s
     let after (u : State) : Prop := exec (.cancel r.tag) s = .next u
     (s.engine.state = .replyWait → after t) ∧
     (s.engine.breaking = none →
       (s.engine.state = .assembling → after (decidedReply r .cancelled [] t)) ∧
       (∀ st, s.engine.state = .streaming → s.engine.stream = some st →
         ¬ (s.reclaim.state = .pinWait ∧ s.reclaim.victim = some st.loc.seg) →
         after (decidedReply r .cancelled
           (le 4 st.version ++ le 2 st.length ++
             le 2 (st.sent % 8192 + (if st.sent = 0 then 16384 else 0) + 32768))
           { t with
             ctrl := t.ctrl.unwanted
             log := { t.log with
               segs := t.log.segs.modify st.loc.seg fun e => { e with pin := false } } })) ∧
       (s.engine.state = .busy → r.kind = 0x18 →
         after { t with
           reclaim := { t.reclaim with tidyRemaining := 0, tidyCancelled := true } }) ∧
       (∀ j, s.engine.state = .busy ∨ s.engine.state = .waitingSpace → r.kind ≠ 0x18 →
         s.engine.job = some j →
         (∀ g loc, s.log.grant = some g → g.claimant = .engine → g.stage = .programming loc →
           g.abandoned = false → after t) ∧
         (∀ marker done left, j.purpose = .formatRewrite marker done left → after t) ∧
         ((∀ marker done left, j.purpose ≠ .formatRewrite marker done left) →
           let withdrawn (grant : Option Grant) : State :=
             decidedReply r .cancelled []
               { t with
                 log := { t.log with engineWaits := false, grant := grant }
                 reclaim := { t.reclaim with foreground := false }
                 group := { t.group with
                   reserved :=
                     if j.purpose = .put true then
                       t.group.reserved.erase (j.record.ns, j.record.key)
                     else t.group.reserved } }
           (s.log.grant = none → after (withdrawn none)) ∧
           (∀ g, s.log.grant = some g → g.claimant = .reclaim → after (withdrawn (some g))) ∧
           ∀ g v, s.log.grant = some g → g.claimant = .engine → g.stage = .opening v →
             g.retry = false → g.abandoned = false →
             after (withdrawn (some { g with abandoned := true })))))) ∧
  (∀ (s : State) (r : Request) st v, PortReady s → s.engine.request = some r →
     s.engine.breaking = none → s.engine.state = .streaming → s.engine.stream = some st →
     s.reclaim.state = .pinWait → s.reclaim.victim = some v → st.loc.seg = v →
     (segAt s.log.segs v).suspect = false → s.ctrl.queue = [] → s.ctrl.paused = none →
     let t := cancelled r.tag s
     let after (c : Controller) : Prop :=
       exec (.cancel r.tag) s = .next (decidedReply r .cancelled
         (le 4 st.version ++ le 2 st.length ++
           le 2 (st.sent % 8192 + (if st.sent = 0 then 16384 else 0) + 32768))
         { t with
           ctrl := c
           reclaim := { t.reclaim with state := .erasing }
           log := { t.log with
             segs := t.log.segs.modify v fun e => { e with pin := false } } })
     (s.ctrl.cur = none → after { s.ctrl.unwanted with cur := some (.eraseMark v) }) ∧
       ∀ op, s.ctrl.cur = some op → op.requester = .engine →
         after { s.ctrl.unwanted with queue := [.eraseMark v] })

/-- An unknown operation byte: 0xFF is driven, nothing of the part changes, and nothing on the link
before SEL is released does either (R168). -/
def Obligations.UnknownOperationIsIgnored : Prop :=
  ∀ (s : State) (op : Byte), PortReady s → Instr.wellFormed (.unknownOperation op) = true →
    ∃ t, exec (.unknownOperation op) s = .next t ∧ t = { s with sel := true, port := t.port } ∧
      t.port.phase = .ignoring ∧ t.port.answer = [] ∧ sdo t = some ([], 0xFF) ∧
      (∀ kind tag payload crc, exec (.send kind tag payload crc) t = .next t) ∧
      (∀ number, exec (.take number) t = .next t) ∧ (∀ tag, exec (.cancel tag) t = .next t) ∧
      exec .fetch t = .next t ∧ exec .poll t = .next t

/-- A cut transaction changes nothing, and the release of SEL ends the transaction: SDO is
high-impedance and the port is ready again (R166, R167). Eight sampled bits, most significant first,
make a byte, and fewer at the end are discarded (R166). A transaction that stands open: 0xFF is
driven on each of the host's bytes, nothing of the part but the port changes, a command whose bytes
go on from those received runs as from the start, and no other does; a RESET amid it leaves the port
waiting for SEL to be released (R166, R167, R176; log 14 names the form of the command). Until SEL
has been released after a completed transaction or a reset, the port starts none (R166, R176). -/
def Obligations.SelReleaseEndsTheTransaction : Prop :=
  (∀ s : State,
     exec .selReleased s = .next { s with sel := false, port := State.reset.port } ∧
       sdo { s with sel := false, port := State.reset.port } = none ∧
       ∀ received, PortReady s → Instr.wellFormed (.transactionCut received) = true →
         exec (.transactionCut received) s =
           .next { s with sel := false, port := State.reset.port } ∧
         ∀ last : List Bool, last.length < 8 → bytesOfBits (bitsOfBytes received ++ last) = received) ∧
  (∀ s received, PortReady s → Instr.wellFormed (.transactionCut received true) = true →
     ∃ t, exec (.transactionCut received true) s = .next t ∧ t = { s with sel := true, port := t.port } ∧
       t.port.phase = .receiving ∧ t.port.operation.toList ++ t.port.collected = received ∧
       t.port.received = received.length ∧ sdo t = some ([], 0xFF) ∧ (∀ i, t.port.drives i = 0xFF) ∧
       (∀ c bytes, Sends c bytes → c.wellFormed = true →
         (received <+: bytes → exec c t = exec c s) ∧ (¬ received <+: bytes → exec c t = .next t)) ∧
       (∀ bytes, exec (.transactionCut bytes) t =
         .next (if received <+: bytes then { s with sel := false, port := State.reset.port } else t)) ∧
       ∀ f rest, AtTake s f rest → f.kind = 0x3F → f.payload = [] →
         ∃ u, exec .reset t = .next u ∧ u.sel = true ∧ u.port.phase = .abandoned ∧
           u.port.operation = none ∧ sdo u = some ([], 0xFF)) ∧
  (∀ s : State, s.powered = true → s.rst = false → s.port.phase ≠ .idle → s.port.phase ≠ .receiving →
     (∀ kind tag payload crc, exec (.send kind tag payload crc) s = .next s) ∧
       (∀ kind tag length, exec (.sendBadLength kind tag length) s = .next s) ∧
       (∀ number, exec (.take number) s = .next s) ∧ (∀ tag, exec (.cancel tag) s = .next s) ∧
       exec .fetch s = .next s ∧ exec .poll s = .next s ∧
       (∀ op, exec (.unknownOperation op) s = .next s) ∧
       ∀ received, exec (.transactionCut received) s = .next s ∧
         exec (.transactionCut received true) s = .next s)

/-! ## Requests decided at their take -/

/-- IDENT (R163). -/
def Obligations.IdentReportsTheFixedValues : Prop :=
  ∀ s f rest, AtTake s f rest → f.kind = 0x01 →
    exec .ident s = .next
      (if f.payload = [] then
        answered f rest .ok
          [0x08, 0x24, 0x01, 0x00, 0x00, 0x10, 0x00, 64, 0x00, 0x40, 0xC0, 0x3F, 8, 32, 0x00, 0x10,
            0x00, 0x04, 32, 8, 8, 248, 240, 64, 8] s
      else answered f rest .badRequest [] s)

/-- SELECT sets all three context values or none, and its OK reply is judged by the new mode (R154).
-/
def Obligations.SelectSetsTheWholeContext : Prop :=
  ∀ s f rest, AtTake s f rest → f.kind = 0x02 →
    (∀ n m w : Byte, f.payload = [n, m, w] → n.toNat ≤ 7 → m.toNat ≤ 1 → w.toNat ≤ 7 →
      let t := { s with
        inbound := rest
        engine := { s.engine with
          ns := n.toNat, mode := if m = 0x00 then .full else .quiet, watermark := w.toNat } }
      let u := if m = 0x00 then
          replied { kind := 0x82, tag := f.tag, status := .ok, payload := [n, m, w] } t
        else t
      exec .select s = .next u ∧ (atn u = true ↔ w.toNat < u.replies.length)) ∧
      ((¬ ∃ n m w : Byte, f.payload = [n, m, w] ∧ n.toNat ≤ 7 ∧ m.toNat ≤ 1 ∧ w.toNat ≤ 7) →
        exec .select s = .next (answered f rest .badRequest [] s))

/-- SPACE reports the log and the directory (R63; spec/10, SPACE reply). -/
def Obligations.SpaceReportsLogAndDirectory : Prop :=
  ∀ s f rest, AtTake s f rest → f.kind = 0x03 →
    (f.payload ≠ [] → exec .space s = .next (answered f rest .badRequest [] s)) ∧
      (f.payload = [] → exec .space s = .next (answered f rest .ok (spacePayload s) s)) ∧
      (spacePayload s).length = 47 ∧
      (spacePayload s).take 8 =
        s.log.device.code :: s.reclaim.state.code ::
          ([SegState.erased, .opened, .filled, .reclaiming, .erasing, .retired].map fun st =>
            BitVec.ofNat 8 (s.log.segs.filter fun e => e.state = st).length) ∧
      ((spacePayload s).drop 11).take 12 =
        le 4 ((s.log.segs.map SegEntry.live).sum) ++
          le 4 (((s.log.segs.filter fun e => e.state = .filled).map fun e => e.used - e.live).sum) ++
          le 4 s.log.sn ∧
      (∀ h, s.log.segs.findIdx? (fun e => e.state = .opened) = some h →
        ((spacePayload s).drop 8).take 3 = BitVec.ofNat 8 h ::
          le 2 (if (segAt s.log.segs h).suspect then 0 else 16320 - (segAt s.log.segs h).used)) ∧
      ((∀ e ∈ s.log.segs, e.state ≠ .opened) → ((spacePayload s).drop 8).take 3 = [0xFF, 0, 0]) ∧
      ((spacePayload s).drop 23).take 8 =
        le 2 (s.dir.filter fun e => e.isLive).length ++
          le 2 (s.dir.filter fun e => !e.isLive).length ++ le 2 s.group.reserved.length ++
          le 2 (1024 - (s.dir.length + s.group.reserved.length)) ∧
      (spacePayload s).drop 31 = (List.range 8).flatMap fun n =>
        le 2 (s.dir.filter fun e => decide (e.ns = n) && e.isLive).length

/-- STAT reports the directory's answer on one key (R37). -/
def Obligations.StatReportsOneKey : Prop :=
  ∀ s f rest, AtTake s f rest → f.kind = 0x0B →
    (∀ key, IsKey f.payload key →
      exec .stat s = .next (answered f rest .ok
        (match s.dir.find? fun e => decide (e.ns = s.engine.ns ∧ e.key = key) with
          | some e =>
            match e.state with
            | .live length => [0x01] ++ le 4 e.version ++ le 2 length
            | .buried => [0x02] ++ le 4 e.version ++ [0x00, 0x00]
          | none => [0x00, 0x00, 0x00, 0x00, 0x00, 0x00, 0x00]) s)) ∧
      ((¬ ∃ key, IsKey f.payload key) → exec .stat s = .next (answered f rest .badRequest [] s))

/-- LIST reports, in directory order, the longest run of the namespace's LIVE entries after the
cursor that the count and the payload admit, and says whether more follow (R38, R39). -/
def Obligations.ListReportsLiveKeysAfterTheCursor : Prop :=
  ∀ s f rest, AtTake s f rest → f.kind = 0x0D →
    (∀ count cursor, IsList f.payload count cursor →
      let all := s.dir.filter fun e =>
        decide (e.ns = s.engine.ns) && e.isLive && keyLt cursor e.key
      let room (taken : List Entry) : Nat := (taken.map fun e => 7 + e.key.length).sum
      ∃ taken left, all = taken ++ left ∧ taken.length ≤ count ∧ 2 + room taken ≤ 248 ∧
        (∀ e more, left = e :: more →
          taken.length = count ∨ 248 < 2 + room taken + (7 + e.key.length)) ∧
        exec .list s = .next (answered f rest .ok
          ([BitVec.ofNat 8 taken.length, if left = [] then 0x00 else 0x01] ++
            taken.flatMap fun e =>
              [BitVec.ofNat 8 e.key.length] ++ e.key ++ le 4 e.version ++ le 2 e.length) s)) ∧
      ((¬ ∃ count cursor, IsList f.payload count cursor) →
        exec .list s = .next (answered f rest .badRequest [] s))

/-- LOCK (R134). LOCKDOWN, and the LOCKs it refuses (R135). -/
def Obligations.LockAndLockdownGuardSessionLocks : Prop :=
  (∀ s f rest, AtTake s f rest → f.kind = 0x20 →
     (∀ mask action : Byte, f.payload = [mask, action] → action.toNat ≤ 1 →
       let locks :=
         if action = 0x01 then s.prot.sessionLocks ||| mask else s.prot.sessionLocks &&& ~~~mask
       exec .lock s = .next
         (if s.group.state ≠ .noGroup then answered f rest .groupOpen [] s
         else if mask &&& s.prot.lockdowns ≠ 0 then answered f rest .denied [] s
         else answered f rest .ok [locks, locks ||| persistentLocks s]
           { s with prot := { s.prot with sessionLocks := locks } })) ∧
       ((¬ ∃ mask action : Byte, f.payload = [mask, action] ∧ action.toNat ≤ 1) →
         exec .lock s = .next (answered f rest .badRequest [] s))) ∧
  (∀ s f rest, AtTake s f rest →
     (∀ mask : Byte, f.kind = 0x21 → f.payload = [mask] →
       exec .lockdown s = .next (answered f rest .ok [s.prot.lockdowns ||| mask]
         { s with prot := { s.prot with lockdowns := s.prot.lockdowns ||| mask } })) ∧
       (f.kind = 0x21 → f.payload.length ≠ 1 →
         exec .lockdown s = .next (answered f rest .badRequest [] s)) ∧
       ∀ (mask action : Byte) (n : Nat), f.kind = 0x20 → f.payload = [mask, action] →
         action.toNat ≤ 1 → mask.getLsbD n = true → s.prot.lockdowns.getLsbD n = true →
         s.group.state = .noGroup → exec .lock s = .next (answered f rest .denied [] s))

/-- GATE_CLOSE (R138). UNLOCK is decided by the first row of its table that applies, and every reply
carries the gate and the counter after the decision (R143). -/
def Obligations.GateIsClosedAndOpened : Prop :=
  (∀ s f rest, AtTake s f rest → f.kind = 0x23 →
     exec .gateClose s = .next
       (if f.payload = [] then
         answered f rest .ok [0x00] { s with prot := { s.prot with gateOpen := false } }
       else answered f rest .badRequest [] s)) ∧
  (∀ s f rest, AtTake s f rest → f.kind = 0x24 →
     let gate (b : Bool) : Byte := if b then 0x01 else 0x00
     let unchanged (status : Status) : State :=
       answered f rest status [gate s.prot.gateOpen, BitVec.ofNat 8 s.prot.unlockFails] s
     exec .unlock s = .next
       (if f.payload.length ≠ 16 then unchanged .badRequest
       else if policyOf s.prot.settings ≠ .passphrase then unchanged .denied
       else if s.prot.unlockFails = 8 then unchanged .lockedOut
       else
         match passphraseOf s with
         | none => unchanged .denied
         | some stored =>
           if f.payload = stored then
             answered f rest .ok [0x01, 0x00]
               { s with prot := { s.prot with gateOpen := true, unlockFails := 0 } }
           else
             answered f rest .denied
               [gate s.prot.gateOpen, BitVec.ofNat 8 (s.prot.unlockFails + 1)]
               { s with prot := { s.prot with unlockFails := s.prot.unlockFails + 1 } }))

/-- PROTECT_STATUS (R145). -/
def Obligations.ProtectStatusReportsProtection : Prop :=
  ∀ s f rest, AtTake s f rest → f.kind = 0x28 →
    let yes (b : Bool) : Byte := if b then 0x01 else 0x00
    exec .protectStatus s = .next
      (if f.payload = [] then
        answered f rest .ok
          [(policyOf s.prot.settings).code, yes s.prot.gateOpen, BitVec.ofNat 8 s.prot.unlockFails,
            s.prot.sessionLocks, s.prot.lockdowns, persistentLocks s,
            s.prot.sessionLocks ||| persistentLocks s, finalSwitches s,
            yes (passphraseOf s).isSome] s
      else answered f rest .badRequest [] s)

/-- A frame of no request kind is refused with the kind received (R151). -/
def Obligations.UnknownKindIsRefused : Prop :=
  ∀ s f rest, AtTake s f rest → f.kind ∉ requestKinds →
    exec .unknownKind s = .next
      (replied { kind := 0xBF, tag := f.tag, status := .badRequest, payload := [f.kind] }
        { s with inbound := rest })

/-! ## Groups, passes, formats and settings -/

/-- BEGIN opens a group at the SN counter's value (R93). DISCARD drops the group: every CURRENT
record's bytes move to dead, and the group unit is as after reset (R102). That a copy the group owns
whose read is outstanding is dropped when the read completes is the model's choice (R105, which
speaks of a copy read already; log 24). A copy the group owns that has been read and waits for the
append point, or for the OPENED mark of its new head, is declined at once and not placed: its claim
is withdrawn, its grant abandoned, and the walk takes its next step, here a read that waits behind
the operation in progress (R53, R105; that the reply is queued before the walk goes on is the
model's choice, log 24). -/
def Obligations.BeginOpensAndDiscardDropsAGroup : Prop :=
  (∀ s f rest, AtTake s f rest → f.kind = 0x10 →
     exec .begin s = .next
       (if f.payload ≠ [] then answered f rest .badRequest [] s
       else if s.log.device = .readOnly then answered f rest .readOnly [] s
       else if s.group.state ≠ .noGroup then answered f rest .groupOpen [] s
       else answered f rest .ok (le 4 s.log.sn)
         { s with group := { s.group with state := .opened, firstSn := some s.log.sn } })) ∧
  (∀ s f rest, AtTake s f rest → f.kind = 0x12 →
     (f.payload ≠ [] → exec .discard s = .next (answered f rest .badRequest [] s)) ∧
       (f.payload = [] → s.group.state = .noGroup →
         exec .discard s = .next (answered f rest .noGroup [] s)) ∧
       (f.payload = [] → s.group.state ≠ .noGroup →
         let segs := (s.group.list.filter fun p => p.standing = .current).foldl
           (fun segs p => deadened p.loc.seg (recordSize p.key.length p.length) segs) s.log.segs
         let t := answered f rest .ok [BitVec.ofNat 8 s.group.list.length]
           { s with group := State.reset.group, log := { s.log with segs := segs } }
         ((∀ c, s.reclaim.copy = some c → c.owner = .group → c.placed ≠ none) →
           exec .discard s = .next t) ∧
         ∀ c, s.reclaim.copy = some c → c.owner = .group → c.placed = none → c.buffer = none →
           exec .discard s =
             .next { t with reclaim := { s.reclaim with copy := some { c with dropped := true } } })) ∧
  (∀ s f rest c x v op, AtTake s f rest → f.kind = 0x12 → f.payload = [] → s.group.state ≠ .noGroup →
     s.reclaim.copy = some c → c.owner = .group → c.placed = none → c.buffer = some x →
     s.reclaim.victim = some v →
     (∀ g, s.log.grant = some g → g.claimant = .reclaim → ∃ w, g.stage = .opening w) →
     s.ctrl.cur = some op → op.requester = .logManager → s.ctrl.queue = [] → s.ctrl.paused = none →
     let segs := (s.group.list.filter fun p => p.standing = .current).foldl
       (fun segs p => deadened p.loc.seg (recordSize p.key.length p.length) segs) s.log.segs
     let t := answered f rest .ok [BitVec.ofNat 8 s.group.list.length]
       { s with
         group := State.reset.group
         log := { s.log with
           segs := segs, copyWaits := false
           grant := s.log.grant.map fun g =>
             if g.claimant = .reclaim then { g with abandoned := true } else g } }
     ∀ d, lowestNamed v s.reclaim.position t = some d →
       exec .discard s = .next { t with
         reclaim := { s.reclaim with copy := some d, position := d.loc.off + d.size }
         ctrl := { s.ctrl with queue := [.copyRead d.loc] } })

/-- COMMIT is checked in the order of R99; a group with staged operations has its marker placed. -/
def Obligations.CommitIsCheckedThenPlaced : Prop :=
  ∀ s f rest, AtTake s f rest → f.kind = 0x11 →
    (f.payload ≠ [] → exec .commit s = .next (answered f rest .badRequest [] s)) ∧
      (f.payload = [] →
        (s.log.device = .readOnly → exec .commit s = .next (answered f rest .readOnly [] s)) ∧
        (s.log.device = .ready →
          (s.group.state = .noGroup → exec .commit s = .next (answered f rest .noGroup [] s)) ∧
          (s.group.state = .failed → exec .commit s = .next (answered f rest .groupFailed [] s)) ∧
          (s.group.state = .opened → s.group.list = [] →
            exec .commit s = .next (answered f rest .ok [0, 0, 0, 0, 0]
              { s with group := State.reset.group })) ∧
          ∀ first head, s.group.state = .opened → s.group.list ≠ [] →
            s.group.firstSn = some first → PlacesAtOnce s head 24 →
            exec .commit s = .next (takenAndPlaced f rest
              { purpose := .commit
                record :=
                  { kind := .commit, ns := 0, tagged := false, key := [], value := le 4 first
                    sn := 0 } } head s)))

/-- TIDY: refused, in READ_ONLY with its totals of 0, ended at once, or passes asked for. With the
reclaim unit IDLE the victim's RECLAIM mark is asked for in the same step (R71 to R73, R88, R181).
The victim is the FILLED segment with the lowest open stamp, where the FILLED segments have one
(R73). -/
def Obligations.TidyAsksForPasses : Prop :=
  (∀ s f rest, AtTake s f rest → f.kind = 0x18 →
     ((¬ ∃ n : Byte, f.payload = [n] ∧ 1 ≤ n.toNat ∧ n.toNat ≤ 64) →
       exec .tidy s = .next (answered f rest .badRequest [] s)) ∧
       ∀ n : Byte, f.payload = [n] → 1 ≤ n.toNat → n.toNat ≤ 64 →
         (s.log.device = .readOnly →
           exec .tidy s = .next (answered f rest .readOnly [0, 0, 0, 0, 0] s)) ∧
         (s.log.device = .ready →
           let asked (left : Nat) : Reclaim :=
             { s.reclaim with
               tidyRemaining := left, tidyDone := 0, tidyFreed := 0, tidyCancelled := false }
           let busy : Engine :=
             { s.engine with state := .busy, request := some (requestOf f s) }
           (s.reclaim.state = .idle → (∀ e ∈ s.log.segs, e.state ≠ .filled) →
             exec .tidy s = .next (answered f rest .ok [0, 0, 0, 0, 0] { s with reclaim := asked 0 })) ∧
           (s.reclaim.state ≠ .idle →
             exec .tidy s =
               .next { s with inbound := rest, engine := busy, reclaim := asked n.toNat }) ∧
           ∀ v, s.reclaim.state = .idle → chooseVictim s.log.segs = some v →
             (∃ e ∈ s.log.segs, e.state = .filled) →
             (segAt s.log.segs v).reclaimMarked = false → s.ctrl.cur = none → s.ctrl.queue = [] →
             s.ctrl.paused = none → exec .tidy s = .next { s with
               inbound := rest
               engine := busy
               reclaim := { asked n.toNat with
                 state := .copying, victim := some v, position := 64, copy := none
                 bytesPlaced := 0 }
               log := { s.log with
                 segs := s.log.segs.modify v fun e => { e with state := .reclaiming } }
               ctrl := { s.ctrl with cur := some (.reclaimMark v) } })) ∧
  (∀ segs v, chooseVictim segs = some v →
     v < segs.length ∧ (segAt segs v).state = .filled ∧
       ∀ w a b, w < segs.length → (segAt segs w).state = .filled → (segAt segs v).stamp = some a →
         (segAt segs w).stamp = some b → a ≤ b)

/-- FORMAT is checked in the order of R64, then its marker placed (R65). -/
def Obligations.FormatIsCheckedThenPlaced : Prop :=
  ∀ s f rest, AtTake s f rest → f.kind = 0x19 →
    let refusal : Option Status :=
      if f.payload ≠ [] then some .badRequest
      else if s.log.device = .readOnly then some .readOnly
      else if s.group.state ≠ .noGroup then some .groupOpen
      else if s.prot.gateOpen = false then some .denied
      else if formatBar s = true then some .denied
      else if s.prot.sessionLocks ||| persistentLocks s ≠ 0 then some .locked
      else none
    (∀ status, refusal = some status →
      exec .format s = .next (answered f rest status [] s)) ∧
      ∀ head, refusal = none → PlacesAtOnce s head 20 →
        exec .format s = .next (takenAndPlaced f rest
          { purpose := .formatMarker
            record :=
              { kind := .format, ns := 0, tagged := false, key := [], value := [], sn := 0 } }
          head s)

/-- The five requests that change stored settings refuse a malformed payload, and then by the three
common checks and their own, in order (R10, R136, R140, R141, R144). A request that changes a stored
setting and passes its checks has the setting's SYSTEM record placed (R129). -/
def Obligations.SettingRequestsAreCheckedThenPlaced : Prop :=
  (∀ s f rest, AtTake s f rest →
     (∀ c kind, (c, kind) ∈ settingRequests → f.kind = kind →
       (¬ ∃ id value own, AsksSetting s c kind f.payload id value own) →
       exec c s = .next (answered f rest .badRequest [] s)) ∧
       ∀ c kind payload id value own, AsksSetting s c kind payload id value own →
         f.kind = kind → f.payload = payload →
         (s.log.device = .readOnly → exec c s = .next (answered f rest .readOnly [] s)) ∧
         (s.log.device = .ready → s.group.state ≠ .noGroup →
           exec c s = .next (answered f rest .groupOpen [] s)) ∧
         (s.log.device = .ready → s.group.state = .noGroup → s.prot.gateOpen = false →
           exec c s = .next (answered f rest .denied [] s)) ∧
         (s.log.device = .ready → s.group.state = .noGroup → s.prot.gateOpen = true → own →
           exec c s = .next (answered f rest .denied [] s))) ∧
  (∀ s f rest c kind payload id value own head, AtTake s f rest →
     AsksSetting s c kind payload id value own → f.kind = kind → f.payload = payload → ¬ own →
     s.group.state = .noGroup → s.prot.gateOpen = true →
     PlacesAtOnce s head (recordSize 1 value.length) →
     exec c s = .next (takenAndPlaced f rest
       { purpose := .setting, record := systemRecord id value } head s))

/-! ## PUT, DATA, DELETE and GET -/

/-- A malformed PUT is refused; a well-formed one with fewer inline bytes than its total opens an
assembly, with the timer started (R20, R21). -/
def Obligations.PutFormAndAssembly : Prop :=
  ∀ s f rest, AtTake s f rest → f.kind = 0x08 →
    ((¬ ∃ form inlineBytes, IsPut f.payload form inlineBytes) →
      exec .put s = .next (answered f rest .badRequest [] s)) ∧
      ∀ form inlineBytes, IsPut f.payload form inlineBytes → inlineBytes.length < form.total →
        exec .put s = .next { s with
          inbound := rest
          engine := { s.engine with
            state := .assembling
            request := some (requestOf f s)
            assembly := some { form := form, buffer := inlineBytes, timerMs := 250 } } }

/-- A PUT complete at its take that passes the checks has its VALUE record placed, staged while a
group is OPEN, a new key's reservation taken (R28, R29, R94, R96). -/
def Obligations.CompletePutIsPlaced : Prop :=
  ∀ s f rest form value head, AtTake s f rest → f.kind = 0x08 → IsPut f.payload form value →
    value.length = form.total → PutPasses s s.engine.ns form →
    PlacesAtOnce s head (recordSize form.key.length value.length) →
    exec .put s = .next (takenAndPlaced f rest (putJob s s.engine.ns form.key value) head
      (reserved s s.engine.ns form.key))

/-- The seven checks of a complete PUT, in order (R28), with what each does to an OPEN group (R98).
-/
def Obligations.PutRefusalsInOrder : Prop :=
  ∀ s f rest form value, AtTake s f rest → f.kind = 0x08 → IsPut f.payload form value →
    value.length = form.total →
    let ns := s.engine.ns
    let refused (status : Status) (payload : Bytes) (t : State) : Prop :=
      exec .put s = .next (answered f rest status payload t)
    (s.log.device = .readOnly → refused .readOnly [] s) ∧
      (s.log.device = .ready →
        (s.group.state = .failed → refused .groupFailed [] s) ∧
        (s.group.state ≠ .failed →
          (writeLocked s ns = true → refused .locked [] s) ∧
          (writeLocked s ns = false →
            (∀ v, form.condition = .ifAbsent → effective s ns form.key = .live v →
              refused .exists_ [] s) ∧
            (∀ w, form.condition = .ifVersion w → effective s ns form.key = .absent →
              refused .notFound [] s) ∧
            (∀ w v, form.condition = .ifVersion w → w ≠ v →
              (effective s ns form.key = .live v ∨ effective s ns form.key = .buried v) →
              refused .versionMismatch (le 4 v) s) ∧
            (ConditionHolds form.condition (effective s ns form.key) →
              (needsSlot s ns form.key = true → 1024 ≤ s.dir.length + s.group.reserved.length →
                refused .dirFull [] (groupFailed s)) ∧
              ((needsSlot s ns form.key = true →
                  s.dir.length + s.group.reserved.length < 1024) →
                (newKey s ns form.key = true →
                  limitOf s ns ≤ liveCount s.dir ns + pendingNew s ns →
                  refused .limitReached [] (groupFailed s)) ∧
                ((newKey s ns form.key = true →
                    liveCount s.dir ns + pendingNew s ns < limitOf s ns) →
                  s.group.state = .opened → 32 ≤ s.group.list.length →
                  refused .groupFull [] (groupFailed s)))))))

/-- The need-for-space decision on a PUT that fits neither the head nor the floor: it waits, raising
a foreground need, when reclaim can free enough, and else fails NO_SPACE behind a SPACE_LOW notice
(R51, R54, R56, R69; the order of the two frames is the model's choice, log 20, and so is that the
floor decides where the stamp counter is at its end too, log 30). A foreground need raised with the
reclaim unit IDLE starts a pass in the same step (R69, R72, R73). A record that does not fit the
head, with 2 ERASED segments or more, opens a new head: the OPENED mark of the segment chosen is
asked for, with the stamp counter's value (R51 to R54). The segment chosen is the ERASED one with
the lowest erase count, and the lowest index among equals (R53). -/
def Obligations.PutWithoutRoomWaitsFailsOrOpensAHead : Prop :=
  (∀ s f rest form value, AtTake s f rest → f.kind = 0x08 → IsPut f.payload form value →
     value.length = form.total → PutPasses s s.engine.ns form → s.group.state = .noGroup →
     s.log.device = .ready → s.log.grant = none →
     let job := putJob s s.engine.ns form.key value
     let size := recordSize form.key.length value.length
     fitsHead s.log.segs size = false → erasedCount s.log.segs ≤ 1 →
     (s.reclaim.state ≠ .idle → size ≤ reclaimable s.log.segs →
       exec .put s = .next { s with
         inbound := rest
         engine := { s.engine with
           state := .waitingSpace, request := some (requestOf f s), job := some job }
         log := { s.log with engineWaits := false }
         reclaim := { s.reclaim with foreground := true } }) ∧
       (reclaimable s.log.segs < size → s.replies.length < 7 →
         let notice :=
           Notice.spaceLow (erasedCount s.log.segs) (reclaimable s.log.segs) size
         exec .put s = .next (answered f rest .noSpace []
           (replied notice.out { s with
             log := { s.log with engineWaits := false }
             reclaim := { s.reclaim with foreground := false } })))) ∧
  (∀ s f rest form value w, AtTake s f rest → f.kind = 0x08 → IsPut f.payload form value →
     value.length = form.total → PutPasses s s.engine.ns form → s.group.state = .noGroup →
     s.log.device = .ready → s.log.grant = none → s.reclaim.state = .idle →
     NextVictim s.log.segs w → s.ctrl.cur = none → s.ctrl.queue = [] → s.ctrl.paused = none →
     let size := recordSize form.key.length value.length
     fitsHead s.log.segs size = false → erasedCount s.log.segs ≤ 1 →
     size ≤ reclaimable s.log.segs →
     exec .put s = .next (passBegun w { s.ctrl with cur := some (.reclaimMark w) } { s with
       inbound := rest
       engine := { s.engine with
         state := .waitingSpace, request := some (requestOf f s)
         job := some (putJob s s.engine.ns form.key value) }
       log := { s.log with engineWaits := false }
       reclaim := { s.reclaim with foreground := true } })) ∧
  (∀ s f rest form value v, AtTake s f rest → f.kind = 0x08 → IsPut f.payload form value →
     value.length = form.total → PutPasses s s.engine.ns form → s.group.state = .noGroup →
     s.log.device = .ready → s.log.grant = none → s.log.stamp ≠ 4294967295 →
     s.ctrl.cur = none → s.ctrl.queue = [] →
     fitsHead s.log.segs (recordSize form.key.length value.length) = false →
     2 ≤ erasedCount s.log.segs → chooseHead s.log.segs = some v →
     let job := putJob s s.engine.ns form.key value
     exec .put s = .next { s with
       inbound := rest
       engine := { s.engine with
         state := .busy, request := some (requestOf f s), job := some job }
       log := { s.log with
         engineWaits := false
         stamp := s.log.stamp + 1
         grant := some
           { claimant := .engine, record := job.record, retry := false, stage := .opening v
             abandoned := false } }
       ctrl := { s.ctrl with cur := some (.openedMark v s.log.stamp) } }) ∧
  (∀ segs v, chooseHead segs = some v →
     v < segs.length ∧ (segAt segs v).state = .erased ∧
       ∀ w, w < segs.length → (segAt segs w).state = .erased →
         (segAt segs v).eraseCount < (segAt segs w).eraseCount ∨
           ((segAt segs v).eraseCount = (segAt segs w).eraseCount ∧ v ≤ w))

/-- DATA that joins the assembly is consumed and restarts the timer; the one that completes the
value has the record placed (R22, R29). DATA that cannot join breaks the assembly: INCOMPLETE for
the PUT, then its own refusal (R23). With no assembly open it is refused alone, whatever its tag
(R26). -/
def Obligations.DataJoinsBreaksOrIsRefused : Prop :=
  (∀ s r a f rest (o0 o1 : Byte) bytes, AtAssembling s r a f rest → f.kind = 0x09 → f.tag = r.tag →
     f.payload = o0 :: o1 :: bytes → o0.toNat + 256 * o1.toNat = a.buffer.length →
     (a.buffer.length + bytes.length < a.form.total →
       exec .data s = .next { s with
         inbound := rest
         engine := { s.engine with
           assembly := some
             { form := a.form, buffer := a.buffer ++ bytes, timerMs := 250 } } }) ∧
       ∀ head, a.buffer.length + bytes.length = a.form.total → PutPasses s r.ns a.form →
         PlacesAtOnce s head (recordSize a.form.key.length a.form.total) →
         exec .data s = .next (placed (putJob s r.ns a.form.key (a.buffer ++ bytes)) head
           { reserved s r.ns a.form.key with inbound := rest })) ∧
  ((∀ s f rest, AtTake s f rest → f.kind = 0x09 →
     exec .data s = .next (answered f rest
       (if f.payload.length < 2 then .badRequest else .badSequence) [] s)) ∧
     ∀ s r a f rest, AtAssembling s r a f rest → f.kind = 0x09 → s.replies.length < 7 →
       s.notices = [] → s.engine.breaking = none →
       let broken (status : Status) : State :=
         replied { kind := 0x89, tag := f.tag, status := status, payload := [] }
           (concluded r .incomplete [] { s with inbound := rest })
       (f.payload.length < 2 → exec .data s = .next (broken .badRequest)) ∧
         ∀ o0 o1 bytes, f.payload = o0 :: o1 :: bytes →
           f.tag ≠ r.tag ∨ o0.toNat + 256 * o1.toNat ≠ a.buffer.length ∨
             a.form.total < a.buffer.length + bytes.length →
           a.buffer.length ≤ a.form.total →
           exec .data s = .next (broken .badSequence))

/-- Any other frame breaks the assembly: the INCOMPLETE reply is queued, and the frame is then
handled as from IDLE, here a LOCKDOWN; with no slot free the reply waits and the frame with it, the
PUT staying the current request, which is the model's choice, log 45 (R24). The assembly timer's
expiry ends the assembly INCOMPLETE, and in every other engine state there is no such event (R25);
that the command then changes nothing is the model's choice (log 2). -/
def Obligations.AssemblyEndsByFrameOrTimer : Prop :=
  (∀ s r a f rest (mask : Byte), AtAssembling s r a f rest → f.kind = 0x21 → f.payload = [mask] →
     (s.replies.length < 7 → s.notices = [] →
       exec .lockdown s = .next (answered f rest .ok [s.prot.lockdowns ||| mask]
         (concluded r .incomplete []
           { s with prot := { s.prot with lockdowns := s.prot.lockdowns ||| mask } }))) ∧
       (8 ≤ s.replies.length →
         exec .lockdown s = .next { s with
           inbound := rest
           engine := { s.engine with
             state := .replyWait, assembly := none, job := none, stream := none, breaking := some f
             decided :=
               [{ kind := r.kind + 0x80, tag := r.tag, status := .incomplete, payload := [] }] } })) ∧
  (∀ s : State,
     (s.engine.state ≠ .assembling → exec .assemblyTimerExpiry s = .next s) ∧
       ∀ r, s.powered = true → s.rst = false → s.engine.state = .assembling →
         s.engine.request = some r → s.engine.breaking = none → SlotOpen s →
         exec .assemblyTimerExpiry s = .next (concluded r .incomplete [] s))

/-- DELETE is checked in the order of R31, and one that passes has its TOMBSTONE record placed (R31,
R32, R94). -/
def Obligations.DeleteIsCheckedThenPlaced : Prop :=
  ∀ s f rest, AtTake s f rest → f.kind = 0x0C →
    ((¬ ∃ key expected, IsDelete f.payload key expected) →
      exec .delete s = .next (answered f rest .badRequest [] s)) ∧
      ∀ key expected, IsDelete f.payload key expected →
        let ns := s.engine.ns
        let refused (status : Status) (payload : Bytes) (t : State) : Prop :=
          exec .delete s = .next (answered f rest status payload t)
        (s.log.device = .readOnly → refused .readOnly [] s) ∧
          (s.log.device = .ready →
            (s.group.state = .failed → refused .groupFailed [] s) ∧
            (s.group.state ≠ .failed → writeLocked s ns = true → refused .locked [] s) ∧
            (s.group.state ≠ .failed → writeLocked s ns = false →
              ((∀ v, effective s ns key ≠ .live v) → refused .notFound [] s) ∧
              ∀ v, effective s ns key = .live v →
                (expected ≠ 0 → expected ≠ v → refused .versionMismatch (le 4 v) s) ∧
                (expected = 0 ∨ expected = v →
                  (s.group.state = .opened → 32 ≤ s.group.list.length →
                    refused .groupFull [] (groupFailed s)) ∧
                  ∀ head, (s.group.state = .opened → s.group.list.length < 32) →
                    PlacesAtOnce s head (recordSize key.length 0) →
                    exec .delete s = .next (takenAndPlaced f rest
                      { purpose := .delete
                        record :=
                          { kind := .tombstone, ns := ns
                            tagged := decide (s.group.state = .opened), key := key, value := []
                            sn := 0 } } head s))))

/-- GET: NOT_FOUND without a LIVE entry; with one, the entry's segment is pinned and its record's
first read asked for (R33). -/
def Obligations.GetPinsAndReads : Prop :=
  ∀ s f rest, AtTake s f rest → f.kind = 0x0A →
    ((¬ ∃ key, IsKey f.payload key) → exec .get s = .next (answered f rest .badRequest [] s)) ∧
      ∀ key, IsKey f.payload key →
        ((∀ e, lookup s.dir s.engine.ns key = some e → e.state = .buried) →
          exec .get s = .next (answered f rest .notFound [] s)) ∧
        ∀ e length, lookup s.dir s.engine.ns key = some e → e.state = .live length →
          s.ctrl.cur = none → s.ctrl.queue = [] →
          exec .get s = .next { s with
            inbound := rest
            engine := { s.engine with
              state := .streaming
              request := some (requestOf f s)
              stream := some
                { key := e.key, version := e.version, length := length, loc := e.loc, sent := 0
                  chunk := none } }
            log := { s.log with
              segs := s.log.segs.modify e.loc.seg fun g => { g with pin := true } }
            ctrl := { s.ctrl with cur := some (.getFirstRead e.loc true) } }

/-- The first read of a stream passes: the first chunk is queued with FIRST, and with LAST when the
value ends in it, which releases the pin; else the next chunk is read (R34, R35), which is asked for
at once, by the model's choice, log 50. A later chunk's read is queued at its offset, LAST with the
value's end; with no slot free the chunk waits (R35, R36). The read of the one after it is asked for
at once, whether or not a slot is left for it, by the model's choice, log 50. The LAST chunk of a
stream whose pin a pass waits for in PIN_WAIT, queued by its first read or a later one, releases the
pin: the victim's ERASE mark is asked for, or a suspect victim is retired (R35, R79, R80, R84). -/
def Obligations.ChunksFollowTheReads : Prop :=
  (∀ s st q r, Running s (.getFirstRead st.loc true) → SlotOpen s → s.engine.request = some q →
     s.engine.stream = some st → st.sent = 0 → recordAt s st.loc = some r →
     st.length = r.value.length → st.length ≤ 4096 → s.reclaim.state ≠ .pinWait →
     let chunk (flags : Nat) (data : Bytes) (t : State) : State :=
       replied { kind := q.kind + 0x80, tag := q.tag, status := .ok
                 payload := le 4 st.version ++ le 2 st.length ++ le 2 flags ++ data } t
     (st.length ≤ 240 →
       exec (.getFirstReadDone true) s = .next (chunk (16384 + 32768) r.value { s with
         ctrl := s.ctrl.rest
         engine := s.engine.toIdle
         log := { s.log with
           segs := s.log.segs.modify st.loc.seg fun e => { e with pin := false } } })) ∧
       (240 < st.length →
         exec (.getFirstReadDone true) s = .next (chunk 16384 (r.value.take 240) { s with
           ctrl := { s.ctrl with cur := some (.chunkRead st.loc true) }
           engine := { s.engine with
             stream := some { st with sent := 240, chunk := none } } }))) ∧
  (∀ s st q r, Running s (.chunkRead st.loc true) → s.engine.request = some q →
     s.engine.stream = some st → 0 < st.sent → st.sent < st.length → recordAt s st.loc = some r →
     st.length = r.value.length → st.length ≤ 4096 → s.reclaim.state ≠ .pinWait →
     let left := st.length - st.sent
     let chunk (flags : Nat) (data : Bytes) (t : State) : State :=
       replied { kind := q.kind + 0x80, tag := q.tag, status := .ok
                 payload := le 4 st.version ++ le 2 st.length ++ le 2 flags ++ data } t
     (SlotOpen s → left ≤ 240 →
       exec .chunkReadDone s = .next (chunk (st.sent + 32768) (r.value.drop st.sent) { s with
         ctrl := s.ctrl.rest
         engine := s.engine.toIdle
         log := { s.log with
           segs := s.log.segs.modify st.loc.seg fun e => { e with pin := false } } })) ∧
       (SlotOpen s → 240 < left →
         exec .chunkReadDone s = .next (chunk st.sent ((r.value.drop st.sent).take 240) { s with
           ctrl := { s.ctrl with cur := some (.chunkRead st.loc true) }
           engine := { s.engine with
             stream := some { st with sent := st.sent + 240, chunk := none } } })) ∧
       (8 ≤ s.replies.length →
         exec .chunkReadDone s = .next { s with
           ctrl := s.ctrl.rest
           engine := { s.engine with
             stream := some
               { st with chunk := some ((r.value.drop st.sent).take (min 240 left)) } } })) ∧
  (∀ s st q r c op, (c = .getFirstReadDone true ∧ op = .getFirstRead st.loc true ∧ st.sent = 0) ∨
       (c = .chunkReadDone ∧ op = .chunkRead st.loc true ∧ 0 < st.sent ∧ st.sent < st.length) →
     Running s op → SlotOpen s → s.engine.request = some q → s.engine.stream = some st →
     recordAt s st.loc = some r → st.length = r.value.length → st.length ≤ 4096 →
     st.length - st.sent ≤ 240 → s.reclaim.state = .pinWait → s.reclaim.victim = some st.loc.seg →
     let flags := st.sent + (if st.sent = 0 then 16384 else 0) + 32768
     let t := replied
       { kind := q.kind + 0x80, tag := q.tag, status := .ok
         payload := le 4 st.version ++ le 2 st.length ++ le 2 flags ++ r.value.drop st.sent }
       { s with
         ctrl := s.ctrl.rest
         engine := s.engine.toIdle
         log := { s.log with
           segs := s.log.segs.modify st.loc.seg fun e => { e with pin := false } } }
     let v := st.loc.seg
     ((segAt s.log.segs v).suspect = false →
       exec c s = .next { t with
         reclaim := { s.reclaim with state := .erasing }
         ctrl := { s.ctrl with cur := some (.eraseMark v) } }) ∧
       ((segAt s.log.segs v).suspect = true → s.replies.length < 7 →
         NothingDue (victimRetired v .suspect t) (victimRetired v .suspect t).dir →
         exec c s = .next (victimRetired v .suspect t)))

/-! ## Programs and marks outside mount -/

/-- A PUT's record outside a group is programmed: it stands in the array, the directory takes the
put completion, its bytes count live and those of the value it replaces dead, and the OK reply
carries its SN, omitted in QUIET mode (R12, R29, R52, R55, R155). A DELETE's record outside a group
is programmed: the directory takes the delete completion, and the bytes of the value count dead, as
the tombstone's do (R13, R32, R52). At the completion of a placement the thresholds are tested: the
background flag takes the value of R70 (R52, R70). A flag then set with the reclaim unit IDLE starts
a pass (R70, R72, R73). A copy that waited behind the grant is granted the append point, and is
placed where it fits the head (R55, R76). These follow the reply, in an order that is the model's
choice, log 26. -/
def Obligations.CompletionsChangeTheDirectory : Prop :=
  (∀ s j q r loc reserved, Programming s j q r loc → j.purpose = .put reserved → r.tagged = false →
     q.kind = 0x08 →
     let entry : Entry :=
       { ns := r.ns, key := r.key, state := .live r.value.length, version := r.sn, loc := loc }
     let dir := dirPut s.dir entry
     let segs :=
       match lookup s.dir r.ns r.key with
       | some e =>
         match e.state with
         | .live length => deadened e.loc.seg (recordSize e.key.length length) s.log.segs
         | .buried => s.log.segs
       | none => s.log.segs
     let done := { s with
       array := written loc r s.array
       ctrl := s.ctrl.rest
       dir := dir
       log := { s.log with grant := none, segs := livened loc.seg r.size segs } }
     (NothingDue s dir →
       exec (.recordProgramDone true) s = .next
         (if q.mode = .quiet then { done with engine := s.engine.toIdle }
         else concluded q .ok (le 4 r.sn) done)) ∧
       ∀ ns key, lookup dir ns key =
         if ns = r.ns ∧ key = r.key then some entry else lookup s.dir ns key) ∧
  (∀ s j q r loc, Programming s j q r loc → j.purpose = .delete → r.tagged = false →
     q.kind = 0x0C →
     let entry : Entry :=
       { ns := r.ns, key := r.key, state := .buried, version := r.sn, loc := loc }
     let dir := dirPut s.dir entry
     let segs :=
       match lookup s.dir r.ns r.key with
       | some e =>
         match e.state with
         | .live length => deadened e.loc.seg (recordSize e.key.length length) s.log.segs
         | .buried => s.log.segs
       | none => s.log.segs
     let done := { s with
       array := written loc r s.array
       ctrl := s.ctrl.rest
       dir := dir
       log := { s.log with grant := none, segs := segs } }
     (NothingDue s dir →
       exec (.recordProgramDone true) s = .next
         (if q.mode = .quiet then { done with engine := s.engine.toIdle }
         else concluded q .ok (le 4 r.sn) done)) ∧
       ∀ ns key, lookup dir ns key =
         if ns = r.ns ∧ key = r.key then some entry else lookup s.dir ns key) ∧
  (∀ s j q r loc reserved, Programming s j q r loc → j.purpose = .put reserved → r.tagged = false →
     q.kind = 0x08 → s.log.engineWaits = false →
     let dir := dirPut s.dir
       { ns := r.ns, key := r.key, state := .live r.value.length, version := r.sn, loc := loc }
     let moved :=
       match lookup s.dir r.ns r.key with
       | some e =>
         match e.state with
         | .live length => deadened e.loc.seg (recordSize e.key.length length) s.log.segs
         | .buried => s.log.segs
       | none => s.log.segs
     let segs := livened loc.seg r.size moved
     let done := flagTested segs dir { s with
       array := written loc r s.array
       ctrl := s.ctrl.rest
       dir := dir
       log := { s.log with grant := none, segs := segs } }
     let ended := if q.mode = .quiet then { done with engine := s.engine.toIdle }
       else concluded q .ok (le 4 r.sn) done
     let after (u : State) : Prop := exec (.recordProgramDone true) s = .next u
     (s.log.copyWaits = false → s.reclaim.state ≠ .idle → after ended) ∧
     (∀ w, s.log.copyWaits = false → s.reclaim.state = .idle → s.log.device = .ready →
       done.reclaim.background = true → NextVictim segs w →
       after (passBegun w { s.ctrl with cur := some (.reclaimMark w) } ended)) ∧
     ∀ c x head, s.log.copyWaits = true → s.reclaim.state ≠ .idle → s.log.device = .ready →
       s.reclaim.copy = some c → c.buffer = some x → headOf segs = some head →
       (segAt segs head).suspect = false → (segAt segs head).used + x.size ≤ 16320 →
       let place : Loc := { seg := head, off := 64 + (segAt segs head).used }
       after (copyGranted c x head
         { s.ctrl with
           cur := some (.programRecord place { x with tagged := copyTag s x }) } ended))

/-- A tagged record is programmed: it is staged as the CURRENT entry of its name, an earlier CURRENT
entry becoming SUPERSEDED with its bytes dead, and the directory does not change (R94, R95). A
COMMIT marker is programmed and no staged record is lost: the pending operations are applied in
staging order, a PUT as LIVE and a DELETE as BURIED, each with its moves of bytes between live and
dead, the group unit is as after reset, a copy in hand that it owned is the directory's, and the
reply carries the marker's SN and the number of operations (R12 to R14, R47, R100, R105). A copy the
group owns that waits, read, for the append point is the directory's then, is granted the append
point when the marker's grant ends, and is placed untagged (R55, R76, R105; that the reply enters the
reply queue before that is the model's choice, log 26). That a
marker in program when its group goes FAILED without a record lost commits all the same, and that
the copy is handed on while its read is outstanding too, are the model's choice (logs 47, 48). -/
def Obligations.StagedRecordsAreCommitted : Prop :=
  (∀ s j q r loc, Programming s j q r loc →
     (j.purpose = .delete ∧ q.kind = 0x0C) ∨ (∃ b, j.purpose = .put b ∧ q.kind = 0x08) →
     r.tagged = true → NothingDue s s.dir →
     let earlier := s.group.list.map fun p =>
       if p.standing = .current ∧ p.ns = r.ns ∧ p.key = r.key then { p with standing := .superseded }
       else p
     let entry : Pending :=
       { isPut := decide (r.kind = .value), ns := r.ns, key := r.key, sn := r.sn, loc := loc
         length := r.value.length, standing := .current }
     let segs :=
       match s.group.list.find? fun p =>
           decide (p.standing = .current ∧ p.ns = r.ns ∧ p.key = r.key) with
       | some p => deadened p.loc.seg (recordSize p.key.length p.length) s.log.segs
       | none => s.log.segs
     let done := { s with
       array := written loc r s.array
       ctrl := s.ctrl.rest
       group := { s.group with list := earlier ++ [entry] }
       log := { s.log with grant := none, segs := livened loc.seg r.size segs } }
     exec (.recordProgramDone true) s = .next
       (if q.mode = .quiet then { done with engine := s.engine.toIdle }
       else concluded q .ok (le 4 r.sn) done)) ∧
  (∀ s j q r loc, Programming s j q r loc → j.purpose = .commit → q.kind = 0x11 →
     (∀ p ∈ s.group.list, p.standing ≠ .lost) →
     let entryOf (p : Pending) : Entry :=
       { ns := p.ns, key := p.key, state := if p.isPut then .live p.length else .buried
         version := p.sn, loc := p.loc }
     let apply (x : List Entry × List SegEntry) (p : Pending) : List Entry × List SegEntry :=
       let segs :=
         match lookup x.1 p.ns p.key with
         | some e =>
           match e.state with
           | .live length => deadened e.loc.seg (recordSize e.key.length length) x.2
           | .buried => x.2
         | none => x.2
       (dirPut x.1 (entryOf p),
         if p.isPut then
           (if p.standing = .current then segs
           else livened p.loc.seg (recordSize p.key.length p.length) segs)
         else if p.standing = .current then deadened p.loc.seg (recordSize p.key.length 0) segs
         else segs)
     let applied := s.group.list.foldl apply (s.dir, s.log.segs)
     let ended (t : State) : State :=
       concluded q .ok (le 4 r.sn ++ [BitVec.ofNat 8 s.group.list.length]) { t with
         array := written loc r s.array
         ctrl := s.ctrl.rest
         dir := applied.1
         group := State.reset.group
         log := { s.log with grant := none, segs := applied.2 } }
     (NothingDue s applied.1 →
       exec (.recordProgramDone true) s = .next (ended { s with
         reclaim := { s.reclaim with
           copy := s.reclaim.copy.map fun c =>
             if c.owner = .group ∧ c.placed = none then { c with owner := .directory } else c } })) ∧
       ∀ c x head, s.log.engineWaits = false → s.log.copyWaits = true → s.log.device = .ready →
         s.reclaim.state ≠ .idle → s.reclaim.copy = some c → c.owner = .group → c.placed = none →
         c.buffer = some x → headOf applied.2 = some head → (segAt applied.2 head).suspect = false →
         (segAt applied.2 head).used + x.size ≤ 16320 →
         let place : Loc := { seg := head, off := 64 + (segAt applied.2 head).used }
         exec (.recordProgramDone true) s = .next
           (copyGranted { c with owner := .directory } x head
             { s.ctrl with cur := some (.programRecord place { x with tagged := false }) }
             (flagTested applied.2 applied.1 (ended s))))

/-- A settings write's record is programmed: the setting is present with the new value, SN and
location, its bytes count live and those of the record it replaces dead, and the reply reports what
the request's rule gives (R10, R129, R136, R140, R141, R144; spec/10, Reply payloads). -/
def Obligations.SettingsWriteTakesEffect : Prop :=
  ∀ s j q r loc id value, Programming s j q r loc → j.purpose = .setting → r.key = [id] →
    r.value = value → NothingDue s s.dir →
    let setting : Setting := { id := id, value := value, sn := r.sn, loc := loc }
    let settings := settingsPut s.prot.settings setting
    let segs :=
      match settingOf s.prot.settings id with
      | some old => deadened old.loc.seg (recordSize 1 old.value.length) s.log.segs
      | none => s.log.segs
    let done := { s with
      array := written loc r s.array
      ctrl := s.ctrl.rest
      prot := { s.prot with settings := settings }
      log := { s.log with grant := none, segs := livened loc.seg r.size segs } }
    let reports (payload : Bytes) : Prop :=
      exec (.recordProgramDone true) s = .next (concluded q .ok payload done)
    (∀ other, settingOf settings other =
        if other = id then some setting else settingOf s.prot.settings other) ∧
      (∀ n, n < 8 → q.kind = 0x1A → id = 0x10 + BitVec.ofNat 8 n →
        reports ([BitVec.ofNat 8 n] ++ value ++ le 2 (liveCount s.dir n))) ∧
      (∀ locks, q.kind = 0x22 → id = 0x01 → value = [locks] →
        reports ([locks, s.prot.sessionLocks ||| locks] ++ le 4 r.sn)) ∧
      (q.kind = 0x25 → id = 0x21 → reports (le 4 r.sn ++ [0x01])) ∧
      (∀ policy : Byte, q.kind = 0x26 → id = 0x20 → value = [policy] →
        policy = 0x01 ∨ policy = 0x02 → reports ([policy] ++ le 4 r.sn)) ∧
      (∀ switches, q.kind = 0x27 → id = 0x22 → value = [switches] →
        reports ([switches] ++ le 4 r.sn))

/-- A FORMAT marker is programmed: the directory is empty and every LIVE entry's bytes are dead.
With no setting present the reply follows; else the rewrite of the first setting is placed (R18,
R65). A rewrite that another follows is programmed: the setting is present with the new record, whose
bytes count live and those of the record it replaces dead, and the next setting's rewrite is placed,
with one rewrite more counted (R65, R129). A FORMAT's last settings rewrite is programmed: the reply carries the marker's SN and the
number of settings rewritten (R65). -/
def Obligations.FormatClearsThenRewritesSettings : Prop :=
  (∀ s j q r loc, Programming s j q r loc → j.purpose = .formatMarker → q.kind = 0x19 →
     NothingDue s [] →
     let segs := (s.dir.filter fun e => e.isLive).foldl
       (fun segs e => deadened e.loc.seg (recordSize e.key.length e.length) segs) s.log.segs
     let done := { s with
       array := written loc r s.array
       ctrl := s.ctrl.rest
       dir := []
       log := { s.log with grant := none, segs := segs } }
     (s.prot.settings = [] →
       exec (.recordProgramDone true) s = .next (concluded q .ok (le 4 r.sn ++ [0x00]) done)) ∧
       ∀ first more head, s.prot.settings = first :: more →
         PlacesAtOnce done head (recordSize 1 first.value.length) →
         exec (.recordProgramDone true) s = .next
           (placed
             { purpose := .formatRewrite r.sn 0 (more.map Setting.id)
               record := systemRecord first.id first.value } head done)) ∧
  (∀ s j q r loc marker rewritten id next rest t head, Programming s j q r loc →
     j.purpose = .formatRewrite marker rewritten (next :: rest) → r.key = [id] → NothingDue s s.dir →
     let settings := settingsPut s.prot.settings
       { id := id, value := r.value, sn := r.sn, loc := loc }
     let segs :=
       match settingOf s.prot.settings id with
       | some old => deadened old.loc.seg (recordSize 1 old.value.length) s.log.segs
       | none => s.log.segs
     let done := { s with
       array := written loc r s.array
       ctrl := s.ctrl.rest
       prot := { s.prot with settings := settings }
       log := { s.log with grant := none, segs := livened loc.seg r.size segs } }
     settingOf settings next = some t → PlacesAtOnce done head (recordSize 1 t.value.length) →
     exec (.recordProgramDone true) s = .next
       (placed
         { purpose := .formatRewrite marker (rewritten + 1) rest
           record := systemRecord next t.value } head done)) ∧
  (∀ s j q r loc marker rewritten id value, Programming s j q r loc →
     j.purpose = .formatRewrite marker rewritten [] → q.kind = 0x19 → r.key = [id] →
     r.value = value → NothingDue s s.dir →
     let segs :=
       match settingOf s.prot.settings id with
       | some old => deadened old.loc.seg (recordSize 1 old.value.length) s.log.segs
       | none => s.log.segs
     exec (.recordProgramDone true) s = .next
       (concluded q .ok (le 4 marker ++ [BitVec.ofNat 8 (rewritten + 1)])
         { s with
           array := written loc r s.array
           ctrl := s.ctrl.rest
           prot := { s.prot with
             settings := settingsPut s.prot.settings
               { id := id, value := value, sn := r.sn, loc := loc } }
           log := { s.log with grant := none, segs := livened loc.seg r.size segs } }))

/-- A record's first program fails: the head is suspect, and a new head is opened for the same
record, SN included. A retry that fails ends MEDIA_FAULT, and a staged operation or a COMMIT fails
the group. What the failed program leaves is torn or whole, which is free (R47, R59, R60, R98; log 8
names the free value, and log 52 says what it means for a COMMIT marker). That a retry without a new head raises no SPACE_LOW, and that the floor ends
it where the stamp counter is at its end too, are the model's choice (logs 51, 30). -/
def Obligations.FailedProgramIsRetriedOnce : Prop :=
  ∀ s j q r loc g, Programming s j q r loc → s.log.grant = some g → s.log.device = .ready →
    s.log.engineWaits = false → s.log.copyWaits = false →
    let failed (t : State) : Prop :=
      ∃ left : Option Record, (left = none ∨ left = some r) ∧
        exec (.recordProgramDone false) s = .next { t with
          free := s.free + 1
          array := s.array.modify loc.seg fun a =>
            { a with slots := a.slots ++
                [{ off := loc.off, size := r.size, record := left
                   residue := if left = none then s.free else 0 }] } }
    let segs := s.log.segs.modify loc.seg fun e => { e with suspect := true }
    (∀ v, g.retry = false → 2 ≤ erasedCount s.log.segs → s.log.stamp ≠ 4294967295 →
      chooseHead s.log.segs = some v →
      failed { s with
        ctrl := { s.ctrl with cur := some (.openedMark v s.log.stamp) }
        log := { s.log with
          segs := segs
          stamp := s.log.stamp + 1
          grant := some { g with retry := true, stage := .opening v } } }) ∧
      ((g.retry = true ∨ erasedCount s.log.segs ≤ 1) →
        (∃ b, j.purpose = .put b) ∨ j.purpose = .delete ∨ j.purpose = .commit →
        failed (concluded q .mediaFault [] { groupFailed s with
          ctrl := s.ctrl.rest
          reclaim := { s.reclaim with foreground := false }
          log := { s.log with segs := segs, grant := none } }))

/-- The OPENED mark of a new head succeeds for a waiting record: the old head is FILLED, its tail
used; the new one OPEN with the record at offset 64; the record's program is asked for, and the old
head's FILLED mark after it, in an order that is the model's choice, log 18 (R47, R49, R53). That a
COMMIT marker whose group has gone FAILED meanwhile is placed like any other record is the model's
choice too, log 49. The OPENED mark fails: the segment is RETIRED, its RETIRED mark asked for, and
SEGMENT_RETIRED raised; for a record that was withdrawn the grant ends, and for one that was not the
choice is made again, its OPENED mark to follow the RETIRED mark (R53, R58, R85). With fewer than 4
segments left in use the device enters READ_ONLY: the record ends READ_ONLY, a retry MEDIA_FAULT,
and an OPEN group is FAILED (R53, R60 to R62, R98). That the log manager asks for the RETIRED mark,
before that of the new choice, and that the thresholds are tested before the choice and in READ_ONLY
too, are the model's choice (logs 42, 44, 46), and so is that the record's reply enters the reply
queue before the READ_ONLY notice (log 20). The OPENED mark succeeds for a record that was
withdrawn: no record is placed for it, the grant ends, and the arbiter grants one of the two
claimants that wait, the engine's record with 2 ERASED segments or more, and else the copy, which is
placed in the new head (R53, R55). The RETIRED mark after a failed OPENED mark has ended: the OPENED
mark of the segment chosen again starts (R53, R58; log 42). The FILLED mark's outcome: valid, or
failed with the old head suspect; and the RETIRED mark's, with the segment RETIRED either way (R53,
R84). -/
def Obligations.HeadAndRetirementMarksAreRecorded : Prop :=
  (∀ s g v stamp h, Running s (.openedMark v stamp) → s.log.grant = some g → g.claimant = .engine →
     g.retry = false → g.abandoned = false → g.stage = .opening v →
     headOf s.log.segs = some h → h ≠ v → v < s.log.segs.length → s.log.device = .ready →
     s.log.sn + 1 ≠ 4294967295 →
     let record := { g.record with sn := s.log.sn }
     let loc : Loc := { seg := v, off := 64 }
     exec (.openedMarkDone true) s = .next { s with
       array := marked v .opened (.valid stamp) s.array
       engine := { s.engine with state := .busy }
       reclaim := { s.reclaim with foreground := false }
       log := { s.log with
         sn := s.log.sn + 1
         grant := some { g with record := record, stage := .programming loc }
         segs := (s.log.segs.modify h fun e => { e with state := .filled, used := 16320 }).modify v
           fun e =>
             { e with
               state := .opened, stamp := some stamp, used := record.size, live := 0
               suspect := false, pin := false, reclaimMarked := false } }
       ctrl := { s.ctrl with cur := some (.programRecord loc record), queue := [.filledMark h] } }) ∧
  (∀ s g v stamp, Running s (.openedMark v stamp) → s.log.grant = some g → SlotOpen s →
     let segs := retired v s.log.segs
     let t := { s with
       array := marked v .opened .failed s.array
       log := { s.log with segs := segs, grant := none }
       ctrl := { s.ctrl with cur := some (.retiredMark v .logManager) } }
     let after (u : State) : Prop := exec (.openedMarkDone false) s = .next u
     (g.abandoned = true → v < s.log.segs.length → NothingDue t s.dir →
       after (replied (retiredNotice v .markFailure s.log.segs).out t)) ∧
     (∀ j w, g.abandoned = false → g.claimant = .engine → g.retry = false → g.stage = .opening v →
       s.engine.job = some j → j.purpose ≠ .commit → s.log.device = .ready → NothingDue t s.dir →
       fitsHead segs j.record.size = false → s.log.stamp ≠ 4294967295 → chooseHead segs = some w →
       after (replied (retiredNotice v .markFailure s.log.segs).out { t with
         log := { t.log with
           stamp := s.log.stamp + 1
           grant := some
             { claimant := .engine, record := j.record, retry := false, stage := .opening w
               abandoned := false } }
         ctrl := { t.ctrl with held := [.openedMark w s.log.stamp] } })) ∧
     ∀ j q, g.abandoned = false → g.claimant = .engine → g.stage = .opening v →
       s.engine.job = some j → s.engine.request = some q → s.engine.breaking = none →
       (∀ marker done left, j.purpose ≠ .formatRewrite marker done left) →
       s.log.device = .ready → s.log.copyWaits = false → inUse segs < 4 → s.replies.length < 6 →
       let u := readOnlyByRetirement t
       after (replied (readOnlyNotice .retirement u).out
         (concluded q (if g.retry then .mediaFault else .readOnly) []
           (replied (retiredNotice v .markFailure s.log.segs).out u)))) ∧
  (∀ s g v stamp h j c x, Running s (.openedMark v stamp) → s.log.grant = some g →
     g.abandoned = true → headOf s.log.segs = some h → h ≠ v → v < s.log.segs.length →
     s.log.device = .ready → s.log.engineWaits = true → s.log.copyWaits = true →
     s.engine.job = some j → j.purpose ≠ .commit → s.engine.assembly = none →
     s.reclaim.copy = some c → c.buffer = some x →
     j.record.size ≤ 16320 → x.size ≤ 16320 → s.log.sn + 1 ≠ 4294967295 →
     let segs := (s.log.segs.modify h fun e => { e with state := .filled, used := 16320 }).modify v
       fun e =>
         { e with
           state := .opened, stamp := some stamp, used := 0, live := 0, suspect := false, pin := false
           reclaimMarked := false }
     let t := { s with
       array := marked v .opened (.valid stamp) s.array
       log := { s.log with segs := segs, grant := none } }
     let program (r : Record) : Controller :=
       { s.ctrl with
         cur := some (.filledMark h), queue := [.programRecord { seg := v, off := 64 } r] }
     let after (u : State) : Prop := exec (.openedMarkDone true) s = .next u
     headOf segs = some v →
     (2 ≤ erasedCount segs →
       after { placed j v t with ctrl := program { j.record with sn := s.log.sn } }) ∧
       (erasedCount segs ≤ 1 →
         after (copyGranted c x v (program { x with tagged := copyTag s x }) t))) ∧
  (∀ s v w stamp ok, s.powered = true → s.rst = false →
     s.ctrl.cur = some (.retiredMark v .logManager) → s.ctrl.queue = [] →
     s.ctrl.held = [.openedMark w stamp] → s.ctrl.paused = none →
     exec (.retiredMarkDone ok) s = .next { s with
       array := marked v .retired (if ok then .valid 0 else .failed) s.array
       ctrl := { s.ctrl with cur := some (.openedMark w stamp), held := [] } }) ∧
  (∀ s h,
     (Running s (.filledMark h) →
       exec (.filledMarkDone true) s = .next { s with
         array := marked h .filled (.valid 0) s.array, ctrl := s.ctrl.rest } ∧
       exec (.filledMarkDone false) s = .next { s with
         array := marked h .filled .failed s.array
         ctrl := s.ctrl.rest
         log := { s.log with segs := s.log.segs.modify h fun e => { e with suspect := true } } }) ∧
       (∀ asker, Running s (.retiredMark h asker) →
         exec (.retiredMarkDone true) s = .next { s with
           array := marked h .retired (.valid 0) s.array, ctrl := s.ctrl.rest } ∧
         exec (.retiredMarkDone false) s = .next { s with
           array := marked h .retired .failed s.array, ctrl := s.ctrl.rest }))

/-! ## The reclaim pass -/

/-- The walk's next record is a record some owner names in the segment at or above the position, and
no named record there lies lower (R74). The RECLAIM mark's program ends: a failure marks the victim
suspect, and either way the walk begins with the read of the lowest needed record, or, with none,
ends: a pinned victim is waited for, and the ERASE mark of a sound one asked for (R73, R74, R79 to
R81); that the walk begins at this completion is the model's choice, log 15. -/
def Obligations.WalkMeetsTheLowestNeededRecord : Prop :=
  (∀ seg position s,
     (∀ c, lowestNamed seg position s = some c →
       c ∈ namedRecords s ∧ c.loc.seg = seg ∧ position ≤ c.loc.off ∧
         ∀ d ∈ namedRecords s, d.loc.seg = seg → position ≤ d.loc.off → c.loc.off ≤ d.loc.off) ∧
       (lowestNamed seg position s = none →
         ∀ d ∈ namedRecords s, d.loc.seg = seg → d.loc.off < position)) ∧
  (∀ s v, Running s (.reclaimMark v) → s.reclaim.victim = some v → s.reclaim.state = .copying →
     s.reclaim.copy = none → s.reclaim.position = 64 →
     let t (ok : Bool) : State := { s with
       array := marked v .reclaim (if ok then .valid 0 else .failed) s.array
       ctrl := s.ctrl.rest
       log := { s.log with
         segs := if ok then s.log.segs
                 else s.log.segs.modify v fun e => { e with suspect := true } } }
     (∀ ok c, lowestNamed v 64 s = some c →
       exec (.reclaimMarkDone ok) s = .next { t ok with
         reclaim := { s.reclaim with copy := some c, position := c.loc.off + c.size }
         ctrl := { s.ctrl with cur := some (.copyRead c.loc) } }) ∧
       (∀ ok, lowestNamed v 64 s = none → (segAt s.log.segs v).pin = true →
         exec (.reclaimMarkDone ok) s =
           .next { t ok with reclaim := { s.reclaim with state := .pinWait } }) ∧
       (lowestNamed v 64 s = none → (segAt s.log.segs v).pin = false →
         (segAt s.log.segs v).suspect = false →
         exec (.reclaimMarkDone true) s = .next { t true with
           reclaim := { s.reclaim with state := .erasing }
           ctrl := { s.ctrl with cur := some (.eraseMark v) } }))

/-- A copy's read passes: the copy claims the append point and, when free, is placed at once, with
the SN it had and its tag kept by the rule of R76; the SN counter does not move (R49, R75, R76). The
copy of a LIVE entry's record is programmed: the entry, unchanged since, takes the new location, the
bytes move, and the walk takes its next step (R15, R52, R77). The copy of a record the pending list
or the settings table names is programmed: the CURRENT entry, or the setting, takes the new location
and the bytes move; a copy its owner no longer names, the directory among the owners, moves nothing.
The walk takes its next step (R15, R52, R77, R104, R130). A copy that fits nowhere with no ERASED
segment left is abandoned: the device enters READ_ONLY, an OPEN group is FAILED, and the pass stops,
its victim still RECLAIMING (R51, R60 to R62, R78, R98); that this is its end where the stamp
counter is at its end too is the model's choice, log 30. -/
def Obligations.CopyKeepsItsSnAndMovesTheEntry : Prop :=
  (∀ s c r head, Running s (.copyRead c.loc) → s.reclaim.copy = some c → c.dropped = false →
     recordAt s c.loc = some r → s.log.device = .ready → s.log.grant = none →
     headOf s.log.segs = some head → (segAt s.log.segs head).suspect = false →
     (segAt s.log.segs head).used + r.size ≤ 16320 →
     let tagged := r.tagged && decide (s.group.state ≠ .noGroup) &&
       (match s.group.firstSn with
         | some first => decide (first ≤ r.sn)
         | none => false)
     let record := { r with tagged := tagged }
     let loc : Loc := { seg := head, off := 64 + (segAt s.log.segs head).used }
     exec (.copyReadDone true) s = .next { s with
       log := { s.log with
         copyWaits := false
         grant := some
           { claimant := .reclaim, record := record, retry := false, stage := .programming loc
             abandoned := false }
         segs := s.log.segs.modify head fun e => { e with used := e.used + r.size } }
       reclaim := { s.reclaim with
         copy := some { c with buffer := some r, placed := some loc, tagged := tagged }
         bytesPlaced := s.reclaim.bytesPlaced + r.size }
       ctrl := { s.ctrl with cur := some (.programRecord loc record) } }) ∧
  (∀ s g c e length loc v, Running s (.programRecord loc g.record) → s.log.grant = some g →
     g.claimant = .reclaim → s.reclaim.copy = some c → c.owner = .directory →
     s.reclaim.victim = some v → s.reclaim.state = .copying → s.log.engineWaits = false →
     s.log.copyWaits = false → s.reclaim.background = false → 4 ≤ erasedCount s.log.segs →
     buriedTotal s.dir < 64 →
     lookup s.dir c.ns c.key = some e → e.state = .live length → e.version = c.sn → e.loc = c.loc →
     let dir := dirPut s.dir { e with loc := loc }
     let t := { s with
       array := written loc g.record s.array
       ctrl := s.ctrl.rest
       dir := dir
       log := { s.log with
         grant := none
         segs := deadened c.loc.seg c.size (livened loc.seg c.size s.log.segs) } }
     buriedTotal dir < 64 →
     (∀ d, lowestNamed v s.reclaim.position t = some d →
       exec (.recordProgramDone true) s = .next { t with
         reclaim := { s.reclaim with copy := some d, position := d.loc.off + d.size }
         ctrl := { s.ctrl with cur := some (.copyRead d.loc) } }) ∧
       ∀ ns key, lookup dir ns key =
         if ns = e.ns ∧ key = e.key then some { e with loc := loc } else lookup s.dir ns key) ∧
  (∀ s g c loc v, Running s (.programRecord loc g.record) → s.log.grant = some g →
     g.claimant = .reclaim → s.reclaim.copy = some c → s.reclaim.victim = some v →
     s.reclaim.state = .copying → s.log.engineWaits = false → s.log.copyWaits = false →
     s.reclaim.background = false → 4 ≤ erasedCount s.log.segs → buriedTotal s.dir < 64 →
     let t := { s with
       array := written loc g.record s.array
       ctrl := s.ctrl.rest
       log := { s.log with grant := none } }
     let moved := deadened c.loc.seg c.size (livened loc.seg c.size s.log.segs)
     let walksOn (u : State) : Prop :=
       ∀ d, lowestNamed v s.reclaim.position u = some d →
         exec (.recordProgramDone true) s = .next { u with
           reclaim := { s.reclaim with copy := some d, position := d.loc.off + d.size }
           ctrl := { s.ctrl with cur := some (.copyRead d.loc) } }
     let named (p : Pending) : Prop :=
       p.standing = .current ∧ p.ns = c.ns ∧ p.key = c.key ∧ p.sn = c.sn ∧ p.loc = c.loc
     (c.owner = .group → (∀ p ∈ s.group.list, ¬ named p) → walksOn t) ∧
       (∀ p, c.owner = .group → p ∈ s.group.list → named p →
         walksOn { t with
           group := { s.group with
             list := s.group.list.map fun p =>
               if p.standing = .current ∧ p.ns = c.ns ∧ p.key = c.key ∧ p.sn = c.sn ∧ p.loc = c.loc
               then { p with loc := loc } else p }
           log := { t.log with segs := moved } }) ∧
       (∀ id x, c.owner = .settings → c.key = [id] → settingOf s.prot.settings id = some x →
         x.sn = c.sn → x.loc = c.loc →
         walksOn { t with
           prot := { s.prot with
             settings := settingsPut s.prot.settings { x with loc := loc } }
           log := { t.log with segs := moved } }) ∧
       (∀ id, c.owner = .settings → c.key = [id] →
         (∀ x, settingOf s.prot.settings id = some x → x.sn = c.sn → x.loc ≠ c.loc) → walksOn t) ∧
       (c.owner = .directory →
         (∀ e length, lookup s.dir c.ns c.key = some e → e.state = .live length → e.version = c.sn →
           e.loc ≠ c.loc) → walksOn t)) ∧
  (∀ s c r, Running s (.copyRead c.loc) → s.reclaim.copy = some c → c.dropped = false →
     recordAt s c.loc = some r → s.log.device = .ready → s.log.grant = none →
     fitsHead s.log.segs r.size = false → erasedCount s.log.segs = 0 → s.engine.state = .idle →
     s.log.engineWaits = false → SlotOpen s →
     exec (.copyReadDone true) s = .next (replied (readOnlyNotice .copyUnplaceable s).out
       { groupFailed s with
         ctrl := s.ctrl.rest
         log := { s.log with device := .readOnly, copyWaits := false }
         reclaim := { s.reclaim with state := .idle, victim := none, copy := none } }))

/-- A copy of a LIVE entry's record whose read fails its check: the entry leaves the directory, its
bytes are dead and RECORD_LOST is raised; the walk goes on (R17, R75). A copy of a staged record
whose read fails its check: the entry is LOST, its bytes dead, an OPEN group FAILED, and RECORD_LOST
raised; one no longer named loses nothing (R75, R98, R106). A copy of a setting's record is answered
by the settings table: RECORD_LOST is raised, and the record it gives is placed (R75, R131). The
first read fails its check: CORRUPT with the version, the pin released, the entry removed and
RECORD_LOST raised, which enters the reply queue first (R17, R34). The first read of a stream whose
pin a pass waits for in PIN_WAIT fails its check: the pin is released, and the sound victim's ERASE
mark is asked for; an entry whose record the pass has moved since stays, and the reply is CORRUPT
(R17, R34, R80). -/
def Obligations.LostRecordLeavesTheDirectory : Prop :=
  (∀ s c e length v, Running s (.copyRead c.loc) → SlotOpen s → s.reclaim.copy = some c →
     c.dropped = false → c.owner = .directory → s.reclaim.victim = some v →
     lookup s.dir c.ns c.key = some e → e.state = .live length → e.version = c.sn → e.loc = c.loc →
     let dir := s.dir.filter fun x => ¬ (x.ns = c.ns ∧ x.key = c.key)
     let t := replied (Notice.recordLost c.ns false 1 c.sn c.key).out { s with
       dir := dir
       ctrl := s.ctrl.rest
       log := { s.log with
         segs := deadened c.loc.seg (recordSize e.key.length length) s.log.segs } }
     ∀ d, lowestNamed v s.reclaim.position t = some d →
       exec (.copyReadDone false) s = .next { t with
         reclaim := { s.reclaim with copy := some d, position := d.loc.off + d.size }
         ctrl := { s.ctrl with cur := some (.copyRead d.loc) } }) ∧
  (∀ s c v, Running s (.copyRead c.loc) → SlotOpen s → s.reclaim.copy = some c →
     c.dropped = false → s.reclaim.victim = some v →
     let t := { s with ctrl := s.ctrl.rest }
     let walksOn (u : State) : Prop :=
       ∀ d, lowestNamed v s.reclaim.position u = some d →
         exec (.copyReadDone false) s = .next { u with
           reclaim := { s.reclaim with copy := some d, position := d.loc.off + d.size }
           ctrl := { s.ctrl with cur := some (.copyRead d.loc) } }
     let named (p : Pending) : Prop :=
       p.standing = .current ∧ p.ns = c.ns ∧ p.key = c.key ∧ p.sn = c.sn ∧ p.loc = c.loc
     (c.owner = .group → (∀ p ∈ s.group.list, ¬ named p) → walksOn t) ∧
       (∀ p, c.owner = .group → p ∈ s.group.list → named p →
         walksOn (replied (Notice.recordLost c.ns false 1 c.sn c.key).out { t with
           group := { s.group with
             state := if s.group.state = .opened then .failed else s.group.state
             list := s.group.list.map fun p =>
               if p.standing = .current ∧ p.ns = c.ns ∧ p.key = c.key ∧ p.sn = c.sn ∧ p.loc = c.loc
               then { p with standing := .lost } else p }
           log := { s.log with segs := deadened c.loc.seg c.size s.log.segs } })) ∧
       ∀ id x head, c.owner = .settings → c.key = [id] → settingOf s.prot.settings id = some x →
         x.sn = c.sn → x.loc = c.loc → s.log.device = .ready → s.log.grant = none →
         headOf s.log.segs = some head → (segAt s.log.segs head).suspect = false →
         let r : Record := { systemRecord x.id x.value with sn := x.sn }
         let loc : Loc := { seg := head, off := 64 + (segAt s.log.segs head).used }
         (segAt s.log.segs head).used + r.size ≤ 16320 →
         exec (.copyReadDone false) s = .next
           (replied (Notice.recordLost 0 true 1 x.sn [x.id]).out { s with
             log := { s.log with
               copyWaits := false
               grant := some
                 { claimant := .reclaim, record := r, retry := false, stage := .programming loc
                   abandoned := false }
               segs := s.log.segs.modify head fun e => { e with used := e.used + r.size } }
             reclaim := { s.reclaim with
               copy := some { c with buffer := some r, placed := some loc, tagged := false }
               bytesPlaced := s.reclaim.bytesPlaced + r.size }
             ctrl := { s.ctrl with cur := some (.programRecord loc r) } })) ∧
  (∀ s st q e, Running s (.getFirstRead st.loc true) → s.replies.length < 7 → s.notices = [] →
     s.engine.request = some q → s.engine.stream = some st → s.engine.breaking = none →
     s.reclaim.state ≠ .pinWait → lookup s.dir q.ns st.key = some e → e.state = .live st.length →
     e.version = st.version → e.loc = st.loc →
     exec (.getFirstReadDone false) s = .next (concluded q .corrupt (le 4 st.version)
       (replied (Notice.recordLost q.ns false 1 st.version st.key).out { s with
         ctrl := s.ctrl.rest
         dir := s.dir.filter fun x => ¬ (x.ns = q.ns ∧ x.key = st.key)
         log := { s.log with
           segs := deadened st.loc.seg (recordSize e.key.length st.length)
             (s.log.segs.modify st.loc.seg fun e => { e with pin := false }) } }))) ∧
  (∀ s st q, Running s (.getFirstRead st.loc true) → SlotOpen s → s.engine.request = some q →
     s.engine.stream = some st → s.engine.breaking = none → s.reclaim.state = .pinWait →
     s.reclaim.victim = some st.loc.seg → (segAt s.log.segs st.loc.seg).suspect = false →
     (∀ e, lookup s.dir q.ns st.key = some e → e.loc ≠ st.loc) →
     exec (.getFirstReadDone false) s = .next (concluded q .corrupt (le 4 st.version) { s with
       ctrl := { s.ctrl with cur := some (.eraseMark st.loc.seg) }
       reclaim := { s.reclaim with state := .erasing }
       log := { s.log with
         segs := s.log.segs.modify st.loc.seg fun e => { e with pin := false } } }))

/-- The ERASE mark makes the segment ERASING and the erase starts; the erase leaves a blank segment
and asks for the ERASED mark with the next erase count, which stays at its end (R44, R81, R83). The
ERASED mark puts the segment in the erased pool; BURIED entries whose tombstones lay there leave the
directory, LIVE ones stay, and the pass completes (R16, R83, R86). A failing ERASE mark, erase or
ERASED mark, and a suspect victim when its walk ends, retire the victim: its RETIRED mark is asked
for, SEGMENT_RETIRED raised with its cause, BURIED entries there leave the directory, and the pass
completes (R79, R81, R83 to R86). What a failed erase leaves is free (log 10). A victim's retirement
that leaves fewer than 4 segments in use makes the device READ_ONLY: a record that waits for space
ends READ_ONLY, an OPEN group is FAILED, and READ_ONLY is raised behind SEGMENT_RETIRED (R57, R61,
R62, R84, R98; that the thresholds are tested in READ_ONLY too is the model's choice, log 44, and
that the reply enters the reply queue before the READ_ONLY notice, log 20). A pass completion
re-examines the record that waits for space: it takes the free append point where it fits, or opens
a head where the floor allows one, its foreground need over; it waits on where reclaim can still
free enough; else it fails NO_SPACE, with SPACE_LOW before it in an order that is the model's
choice, log 20. The thresholds are tested then, and a flag set, or a need that stands, starts the
next pass (R51, R54, R56, R57, R70, R72, R73, R86, R87). That the need is over at the record's claim,
before a placement, so that no further pass starts for it, is the model's inference, log 19. -/
def Obligations.VictimIsErasedOrRetired : Prop :=
  (∀ s v,
     (Running s (.eraseMark v) →
       exec (.eraseMarkDone true) s = .next { s with
         array := marked v .erase (.valid 0) s.array
         log := { s.log with segs := s.log.segs.modify v fun e => { e with state := .erasing } }
         ctrl := { s.ctrl with cur := some (.erase v), pauseCount := 0 } }) ∧
       (Running s (.erase v) →
         let count := (segAt s.log.segs v).eraseCount
         exec (.eraseDone true) s = .next { s with
           array := s.array.modify v fun _ =>
             { marks :=
                 { erased := .blank, opened := .blank, filled := .blank, reclaim := .blank
                   erase := .blank, retired := .blank }
               slots := [] }
           ctrl := { s.ctrl with
             cur := some (.erasedMark v (if count = 4294967295 then count else count + 1)) } })) ∧
  (∀ s v count, Running s (.erasedMark v count) → s.engine.state = .idle → s.engine.job = none →
     let segs := s.log.segs.modify v fun e =>
       { e with
         state := .erased, stamp := none, eraseCount := count, used := 0, live := 0
         suspect := false, pin := false, reclaimMarked := false }
     let t := { s with
       array := marked v .erased (.valid count) s.array
       ctrl := s.ctrl.rest
       dir := s.dir.filter fun e => e.isLive || decide (e.loc.seg ≠ v)
       log := { s.log with segs := segs }
       reclaim := { s.reclaim with
         state := .idle, victim := none, position := 64, copy := none, bytesPlaced := 0 } }
     NothingDue t t.dir → exec (.erasedMarkDone true) s = .next t) ∧
  (∀ s v, SlotOpen s → s.engine.state = .idle → s.engine.job = none →
     let due (t : State) : Prop := NothingDue t t.dir
     let failed (p : MarkPos) : State := { s with array := marked v p .failed s.array }
     (Running s (.eraseMark v) → due (victimRetired v .markFailure s) →
       exec (.eraseMarkDone false) s = .next (victimRetired v .markFailure (failed .erase))) ∧
     (Running s (.erase v) → due (victimRetired v .eraseFailure s) →
       ∃ keepsMarks keepsRecord, exec (.eraseDone false) s =
         .next (victimRetired v .eraseFailure { s with
           array := s.array.modify v (eraseLeft keepsMarks keepsRecord s.free)
           free := s.free + 1 })) ∧
     (∀ count, Running s (.erasedMark v count) → due (victimRetired v .markFailure s) →
       exec (.erasedMarkDone false) s = .next (victimRetired v .markFailure (failed .erased))) ∧
     (Running s (.reclaimMark v) → s.reclaim.victim = some v → s.reclaim.state = .copying →
       s.reclaim.copy = none → lowestNamed v s.reclaim.position s = none →
       (segAt s.log.segs v).pin = false → due (victimRetired v .suspect s) →
       ((segAt s.log.segs v).suspect = true →
         exec (.reclaimMarkDone true) s = .next (victimRetired v .suspect
           { s with array := marked v .reclaim (.valid 0) s.array })) ∧
       (v < s.log.segs.length →
         exec (.reclaimMarkDone false) s = .next (victimRetired v .suspect
           { failed .reclaim with
             log := { s.log with
               segs := s.log.segs.modify v fun e => { e with suspect := true } } })))) ∧
  (∀ s v, Running s (.eraseMark v) → s.replies.length < 6 → s.notices = [] → s.log.device = .ready →
     s.log.grant = none → s.log.copyWaits = false → inUse (retired v s.log.segs) < 4 →
     let u := readOnlyByRetirement
       (victimRetired v .markFailure { s with array := marked v .erase .failed s.array })
     (s.engine.state = .idle → s.engine.job = none → s.log.engineWaits = false →
       s.reclaim.foreground = false →
       exec (.eraseMarkDone false) s = .next (replied (readOnlyNotice .retirement u).out u)) ∧
       ∀ j q, s.engine.state = .waitingSpace → s.engine.job = some j → s.engine.request = some q →
         s.engine.breaking = none →
         (∀ marker done left, j.purpose ≠ .formatRewrite marker done left) →
         exec (.eraseMarkDone false) s =
           .next (replied (readOnlyNotice .retirement u).out (concluded q .readOnly [] u))) ∧
  (∀ s v count j q, Running s (.erasedMark v count) → s.engine.state = .waitingSpace →
     s.engine.job = some j → s.engine.request = some q → s.engine.breaking = none →
     s.engine.assembly = none → q.kind ≠ 0x18 → s.log.engineWaits = false →
     s.log.copyWaits = false → s.log.grant = none → s.log.device = .ready →
     s.reclaim.tidyRemaining = 0 → j.purpose ≠ .commit →
     let segs := s.log.segs.modify v fun e =>
       { e with
         state := .erased, stamp := none, eraseCount := count, used := 0, live := 0
         suspect := false, pin := false, reclaimMarked := false }
     let t := { s with
       array := marked v .erased (.valid count) s.array
       ctrl := s.ctrl.rest
       dir := s.dir.filter fun e => e.isLive || decide (e.loc.seg ≠ v)
       log := { s.log with segs := segs }
       reclaim := { s.reclaim with
         state := .idle, victim := none, position := 64, copy := none, bytesPlaced := 0 } }
     let settles (u : State) : Prop :=
       let tested := flagTested u.log.segs u.dir u
       let asked (w : Nat) : Controller :=
         if u.ctrl.cur = none then { u.ctrl with cur := some (.reclaimMark w) }
         else { u.ctrl with queue := [.reclaimMark w] }
       (u.reclaim.foreground = false → tested.reclaim.background = false →
         exec (.erasedMarkDone true) s = .next tested) ∧
         ∀ w, u.reclaim.foreground = true ∨ tested.reclaim.background = true →
           NextVictim u.log.segs w →
           exec (.erasedMarkDone true) s = .next (passBegun w (asked w) tested)
     (∀ head, PlacesAtOnce t head j.record.size → settles (placed j head t)) ∧
       (fitsHead segs j.record.size = false →
         (∀ h, 2 ≤ erasedCount segs → s.log.stamp ≠ 4294967295 → chooseHead segs = some h →
           settles { t with
             ctrl := { s.ctrl with cur := some (.openedMark h s.log.stamp) }
             reclaim := { t.reclaim with foreground := false }
             log := { t.log with
               stamp := s.log.stamp + 1
               grant := some
                 { claimant := .engine, record := j.record, retry := false, stage := .opening h
                   abandoned := false } } }) ∧
         (erasedCount segs ≤ 1 →
           (j.record.size ≤ reclaimable segs → settles t) ∧
           (reclaimable segs < j.record.size → s.replies.length < 7 → s.notices = [] →
             (∃ b, j.purpose = .put b) ∨ j.purpose = .delete →
             let notice := Notice.spaceLow (erasedCount segs) (reclaimable segs) j.record.size
             settles (concluded q .noSpace []
               (replied notice.out { groupFailed t with
                 reclaim := { t.reclaim with foreground := false } }))))))

/-- A read or a program that reaches the controller while an erase runs pauses it while fewer than
16 pauses have been taken, here the first read of a GET; with 16 taken it waits (R82). While an
erase stands paused, what waits is served in turn, and when nothing waits any more the erase
resumes, the unit ERASING again: here behind a FILLED mark, and behind a read of an ended stream
(R42, R58, R82). That such a read stays with the controller and completes with no effect but that
the controller goes on is the model's inference, log 31. -/
def Obligations.EraseIsPausedAtMostSixteenTimes : Prop :=
  (∀ s f rest key e length v, AtTake s f rest → f.kind = 0x0A → IsKey f.payload key →
     lookup s.dir s.engine.ns key = some e → e.state = .live length →
     s.ctrl.cur = some (.erase v) → s.ctrl.queue = [] →
     let t := { s with
       inbound := rest
       engine := { s.engine with
         state := .streaming
         request := some (requestOf f s)
         stream := some
           { key := e.key, version := e.version, length := length, loc := e.loc, sent := 0
             chunk := none } }
       log := { s.log with
         segs := s.log.segs.modify e.loc.seg fun g => { g with pin := true } } }
     (s.ctrl.pauseCount < 16 →
       exec .get s = .next { t with
         ctrl := { s.ctrl with
           cur := some (.getFirstRead e.loc true), queue := [], paused := some v
           pauseCount := s.ctrl.pauseCount + 1 }
         reclaim := { s.reclaim with state := .erasePaused } }) ∧
       (16 ≤ s.ctrl.pauseCount →
         exec .get s =
           .next { t with ctrl := { s.ctrl with queue := [.getFirstRead e.loc true] } })) ∧
  (∀ s v, s.powered = true → s.rst = false → s.ctrl.paused = some v → s.ctrl.held = [] →
     let served (c : Instr) (t : State) : Prop :=
       (s.ctrl.queue = [] →
         exec c s = .next { t with
           ctrl := { s.ctrl with cur := some (.erase v), paused := none }
           reclaim := { s.reclaim with state := .erasing } }) ∧
         ∀ op more, s.ctrl.queue = op :: more → (∀ w, op ≠ .erase w) →
           exec c s = .next { t with ctrl := { s.ctrl with cur := some op, queue := more } }
     (∀ h, s.ctrl.cur = some (.filledMark h) →
       served (.filledMarkDone true) { s with array := marked h .filled (.valid 0) s.array }) ∧
       (∀ loc ok, s.ctrl.cur = some (.getFirstRead loc false) → served (.getFirstReadDone ok) s) ∧
       ∀ loc, s.ctrl.cur = some (.chunkRead loc false) → served .chunkReadDone s)

/-! ## Mount -/

/-- A descriptor's read: the class, the erase count and the stamp are kept, and the next descriptor
is read (R110, R111); how many reads mount makes is the model's choice, log 27. A walk's read: a
record that passes its tests and its check is kept and the walk goes on behind it; a torn record,
one out of bounds, or one whose bytes fail, ends the walk and counts as discarded; erased space ends
it (R112, R113). A scan's read keeps the greatest SN of a record that passes in the region, one
whose image lies at another multiple of 4 than a record's start among them. The SN of such an image
is free, below 2^32 - 1, and a function of the region's bytes and of the places read with failure
alone, so that a mount over the same bytes scans the same result; over erased space, and over a torn
record with erased space behind it, it is none (R114, R127; log 41 names the free value). -/
def Obligations.MountReadsDescriptorsAndRecords : Prop :=
  (∀ s m seg, Running s .mountRead → s.mount = some m → m.phase = .descriptor seg → seg + 1 < 64 →
     let marks := (s.array.getD seg ArraySeg.blank).marks
     (exec (.mountReadDone []) s = .next { s with
       mount := some { m with
         phase := .descriptor (seg + 1), reads := m.reads ++ [readDescriptor marks] } }) ∧
       (marks.retired = .valid 0 → (readDescriptor marks).cls = .retired) ∧
       (marks.retired = .blank → marks.erase ≠ .blank → (readDescriptor marks).cls = .unknown) ∧
       (∀ count, marks = { Marks.blank with erased := .valid count } →
         readDescriptor marks = { cls := .erased, eraseCount := some count, stamp := none }) ∧
       (∀ count stamp, marks = { Marks.blank with erased := .valid count, opened := .valid stamp } →
         readDescriptor marks = { cls := .opened, eraseCount := some count, stamp := some stamp }) ∧
       ∀ count stamp, marks = { Marks.blank with
           erased := .valid count, opened := .valid stamp, filled := .valid 0 } →
         readDescriptor marks = { cls := .filled, eraseCount := some count, stamp := some stamp }) ∧
  (∀ s m seg next more off, Running s .mountRead → s.mount = some m →
     m.phase = .walk (seg :: next :: more) off → off < 16384 →
     let slots := (s.array.getD seg ArraySeg.blank).slots
     let ended (stop : WalkStop) (discarded : Nat) : Mount :=
       { m with
         phase := .walk (next :: more) 64
         ends := m.ends ++ [{ seg := seg, off := off, stop := stop }]
         discarded := m.discarded + discarded }
     (∀ size r, slots.find? (fun t => t.off = off) = some { off := off, size := size, record := some r } →
       r.key.length ≤ 32 → r.value.length ≤ 4096 → off + r.size ≤ 16384 →
       exec (.mountReadDone []) s = .next { s with
         mount := some { m with
           phase := .walk (seg :: next :: more) (off + r.size)
           found := m.found ++ [{ loc := { seg := seg, off := off }, record := r }] } } ∧
       exec (.mountReadDone [off]) s = .next { s with mount := some (ended .torn 1) }) ∧
       (∀ size r,
         slots.find? (fun t => t.off = off) = some { off := off, size := size, record := some r } →
         32 < r.key.length ∨ 4096 < r.value.length ∨ 16384 < off + r.size →
         exec (.mountReadDone []) s = .next { s with mount := some (ended .torn 1) }) ∧
       (∀ size, slots.find? (fun t => t.off = off) = some { off := off, size := size, record := none } →
         exec (.mountReadDone []) s = .next { s with mount := some (ended .torn 1) }) ∧
       ((∀ t ∈ slots, t.off < off) →
         exec (.mountReadDone []) s = .next { s with mount := some (ended .erasedSpace 0) })) ∧
  (∃ images, ImageSns images ∧
     ∀ s m region next more bad, Running s .mountRead → s.mount = some m →
       m.phase = .scan (region :: next :: more) →
       ∃ sn, ScanLeaves images s region bad m.scanSn sn ∧
         exec (.mountReadDone bad) s =
           .next { s with mount := some { m with phase := .scan (next :: more), scanSn := sn } })

/-- Of the standing records of one name the rebuilt directory has the newest, by SN, then open
stamp, then offset, and it has no other entry, while at most 1,024 names are found (R116 to R118).
With its last read made mount decides and settles everything it has read at once, and goes on with
the first segment to close, or the first to erase, or the head to open, or its end (R114 to R124);
the last scan leaves the greatest SN found, images at other offsets among them (log 41 names their
free value). What is rebuilt: of the names found at most 1,024, every LIVE one before the BURIED ones and each in
descending order of version, with the number left out; each of the twelve settings from the newest
SYSTEM record of its id, absent where none is found or its value is out of range; the SN counter at
1 above every SN found or scanned, and the stamp counter at 1 above every stamp read (R111, R117 to
R119, R123). -/
def Obligations.MountKeepsTheNewestRecordOfEachName : Prop :=
  (∀ m : Mount,
     let names := nameRecords m.reads m.found
     (∀ f ∈ m.found, stands m.found f.record = true →
       ∃ g ∈ names, g.record.ns = f.record.ns ∧ g.record.key = f.record.key ∧
         (f.record.sn < g.record.sn ∨
           (f.record.sn = g.record.sn ∧ stampAt m.reads f.loc.seg < stampAt m.reads g.loc.seg) ∨
           (f.record.sn = g.record.sn ∧ stampAt m.reads f.loc.seg = stampAt m.reads g.loc.seg ∧
             f.loc.off ≤ g.loc.off))) ∧
       (∀ g ∈ names, g ∈ m.found ∧ stands m.found g.record = true) ∧
       (names.length ≤ 1024 → ∀ e, e ∈ m.rebuild.dir ↔ ∃ g ∈ names, e = g.entry)) ∧
  (∃ images, ImageSns images ∧ ∀ s m bad, Running s .mountRead → s.mount = some m →
     let ends (bad : List Nat) (u : State) (r : Mount) : Prop :=
       let unknown := indicesOf r.reads fun c => decide (c = .unknown)
       let goesOn (phase : MountPhase) (op : Option ArrayOp) : Prop :=
         exec (.mountReadDone bad) s =
           .next { u with mount := some { r with phase := phase }, ctrl := { s.ctrl with cur := op } }
       (∀ i more, toClose r = i :: more → goesOn (.close (i :: more)) (some (.mountFilledMark i))) ∧
         (toClose r = [] → ∀ i more, unknown = i :: more →
           goesOn (.reErase (i :: more)) (some (.mountErase i))) ∧
         (toClose r = [] → unknown = [] →
           (headToOpen r = none → goesOn .finished none) ∧
           ∀ v, headToOpen r = some v →
             exec (.mountReadDone bad) s = .next { u with
               mount := some { r with phase := .openHead v, stamp := r.stamp + 1 }
               ctrl := { s.ctrl with cur := some (.mountOpenedMark v r.stamp) } })
     (∀ region, m.phase = .scan [region] →
       ∃ sn, ScanLeaves images s region bad m.scanSn sn ∧
         ends bad s ({ m with scanSn := sn } : Mount).rebuild) ∧
       ∀ seg off, m.phase = .walk [seg] off → off < 16384 →
         (∀ t ∈ (s.array.getD seg ArraySeg.blank).slots, t.off < off) →
         let walked : Mount :=
           { m with ends := m.ends ++ [{ seg := seg, off := off, stop := .erasedSpace }] }
         scanRegions walked = [] → ends bad s walked.rebuild) ∧
  (∀ m : Mount,
     let r := m.rebuild
     let names := nameRecords m.reads m.found
     let newest (f : Found) (own : List Found) : Prop :=
       f ∈ own ∧ ∀ g ∈ own, g.record.sn < f.record.sn ∨
         (g.record.sn = f.record.sn ∧ (stampAt m.reads g.loc.seg < stampAt m.reads f.loc.seg ∨
           (stampAt m.reads g.loc.seg = stampAt m.reads f.loc.seg ∧ g.loc.off ≤ f.loc.off)))
     let inRange (id : Byte) (value : Bytes) : Prop :=
       if id = 0x01 then value.length = 1
       else if id = 0x20 then value = [0x01] ∨ value = [0x02]
       else if id = 0x21 then value.length = 16
       else if id = 0x22 then ∃ b : Byte, value = [b] ∧ b.toNat ≤ 3
       else ∃ l0 l1 : Byte, value = [l0, l1] ∧ l0.toNat + 256 * l1.toNat ≤ 1024
     let ids : List Byte := [0x01, 0x10, 0x11, 0x12, 0x13, 0x14, 0x15, 0x16, 0x17, 0x20, 0x21, 0x22]
     (r.dir.length = min names.length 1024 ∧ r.leftOut = names.length - 1024 ∧
       (∀ e ∈ r.dir, ∃ g ∈ names, e = g.entry) ∧
       ∀ g ∈ names, g.entry ∉ r.dir → ∀ e ∈ r.dir,
         (g.entry.isLive = true → e.isLive = true) ∧
           (g.entry.isLive = e.isLive → g.entry.version ≤ e.version)) ∧
     (∀ id, id ∉ ids → settingOf r.settings id = none) ∧
     (∀ id ∈ ids,
       let own := m.found.filter fun f => decide (f.record.kind = .system ∧ f.record.key = [id])
       (own = [] → settingOf r.settings id = none) ∧
         (own ≠ [] → ∃ f, newest f own ∧
           (inRange id f.record.value → settingOf r.settings id =
             some { id := id, value := f.record.value, sn := f.record.sn, loc := f.loc }) ∧
           (¬ inRange id f.record.value → settingOf r.settings id = none))) ∧
     ((∀ f ∈ m.found, f.record.sn < r.sn) ∧ m.scanSn < r.sn ∧
       (r.sn = m.scanSn + 1 ∨ ∃ f ∈ m.found, r.sn = f.record.sn + 1)) ∧
     (∀ read ∈ m.reads, ∀ n, read.stamp = some n → n < r.stamp) ∧
       (r.stamp = 1 ∨ ∃ read ∈ m.reads, ∃ n, read.stamp = some n ∧ r.stamp = n + 1))

/-- What mount takes each segment as, by what it read: an ERASED or RETIRED one as found; a FILLED
one with 16,320 bytes used; an OPEN one as the head exactly when it has the greatest stamp of all
walked segments and its walk did not end torn, its used bytes up to the walk's end, and else as
FILLED, to be closed; the RECLAIMING one of the lowest stamp as RECLAIMING, another as FILLED; with
the bytes live that LIVE entries and settings name there. A head is opened when none is kept, while
4 segments are in use and neither counter is at its end (R111, R120, R121, R124). A FILLED mark of
mount: valid, or failed with the segment suspect; the next OPEN segment is closed (R120). The erase
of an UNKNOWN segment, its ERASED mark with the count after its own, or after the highest count
found, and the segment in the pool; a failing erase, which leaves what is free (log 10), or a failing
mark retires it (R122). The head mount opens: OPEN
with its stamp when the mark succeeds, and mount has only its end left; retired when it fails
(R124), with the RETIRED mark asked for before the next choice (the model's choice, log 29). -/
def Obligations.MountSettlesTheSegments : Prop :=
  (∀ m : Mount,
     let r := m.rebuild
     let walked (c : SegClass) : Prop := c = .opened ∨ c = .filled ∨ c = .reclaiming
     r.segs.length = m.reads.length ∧
     (∀ i read, m.reads[i]? = some read →
       let live :=
         ((r.dir.filter fun e => e.isLive && decide (e.loc.seg = i)).map fun e =>
             recordSize e.key.length e.length).sum +
           ((r.settings.filter fun t => decide (t.loc.seg = i)).map fun t =>
             recordSize 1 t.value.length).sum
       let count := read.eraseCount.getD 0
       let is (e : SegEntry) : Prop := r.segs[i]? = some e
       let walkedAs (state : SegState) (used : Nat) (marked : Bool) : Prop :=
         is { state := state, stamp := read.stamp, eraseCount := count, used := used, live := live
              suspect := false, pin := false, reclaimMarked := marked }
       let unused (state : SegState) (count : Nat) : Prop :=
         is { state := state, stamp := none, eraseCount := count, used := 0, live := 0
              suspect := false, pin := false, reclaimMarked := false }
       let other (p : Nat → SegClass → Prop) : Prop :=
         ∃ k x, k ≠ i ∧ m.reads[k]? = some x ∧ p (x.stamp.getD 0) x.cls
       let stamp := read.stamp.getD 0
       (read.cls = .erased → unused .erased count) ∧ (read.cls = .retired → unused .retired 0) ∧
         (read.cls = .filled → walkedAs .filled 16320 false) ∧
         (read.cls = .reclaiming →
           (¬ other (fun n c => c = .reclaiming ∧ n ≤ stamp) → walkedAs .reclaiming 16320 false) ∧
             (other (fun n c => c = .reclaiming ∧ n < stamp) → walkedAs .filled 16320 true)) ∧
         (read.cls = .opened → ∀ e, m.ends.find? (fun e => decide (e.seg = i)) = some e →
           (¬ other (fun n c => walked c ∧ stamp ≤ n) → e.stop ≠ .torn →
             walkedAs .opened (e.off - 64) false ∧ i ∉ toClose r) ∧
             (other (fun n c => walked c ∧ stamp < n) ∨ e.stop = .torn →
               walkedAs .filled 16320 false ∧ i ∈ toClose r)) ∧
         (i ∈ toClose r → read.cls = .opened)) ∧
     ∀ x : Mount,
       (headOf x.segs = none → 4 ≤ inUse x.segs → x.sn ≠ 4294967295 → x.stamp ≠ 4294967295 →
         headToOpen x = chooseHead x.segs) ∧
         (headOf x.segs ≠ none ∨ inUse x.segs < 4 ∨ x.sn = 4294967295 ∨ x.stamp = 4294967295 →
           headToOpen x = none)) ∧
  (∀ s m i j more ok, Running s (.mountFilledMark i) → s.mount = some m →
     m.phase = .close (i :: j :: more) →
     exec (.mountFilledMarkDone ok) s = .next { s with
       array := marked i .filled (if ok then .valid 0 else .failed) s.array
       ctrl := { s.ctrl with cur := some (.mountFilledMark j) }
       mount := some { m with
         phase := .close (j :: more)
         segs := m.segs.modify i fun e => { e with suspect := !ok } } }) ∧
  (∀ s m i, s.mount = some m →
     (Running s (.mountErase i) →
       let old := ((m.reads.getD i { cls := .unknown, eraseCount := none, stamp := none }).eraseCount).getD
         (highestCount m.reads)
       exec (.mountEraseDone true) s = .next { s with
         array := s.array.modify i fun _ => ArraySeg.blank
         ctrl := { s.ctrl with
           cur := some (.mountErasedMark i (if old = 4294967295 then old else old + 1)) } }) ∧
       (Running s (.mountErase i) → ∃ keepsMarks keepsRecord,
         exec (.mountEraseDone false) s = .next { s with
           array := s.array.modify i (eraseLeft keepsMarks keepsRecord s.free)
           free := s.free + 1
           ctrl := { s.ctrl with cur := some (.mountRetiredMark i) }
           mount := some { m with
             retiredBy := m.retiredBy + 1
             segs := m.segs.modify i fun _ => SegEntry.none_ } }) ∧
       (∀ count j more, Running s (.mountErasedMark i count) → m.phase = .reErase (i :: j :: more) →
         exec (.mountErasedMarkDone true) s = .next { s with
           array := marked i .erased (.valid count) s.array
           ctrl := { s.ctrl with cur := some (.mountErase j) }
           mount := some { m with
             phase := .reErase (j :: more)
             erasedBy := m.erasedBy + 1
             segs := m.segs.modify i fun e =>
               { e with
                 state := .erased, stamp := none, eraseCount := count, used := 0, live := 0
                 suspect := false, pin := false, reclaimMarked := false } } } ∧
         exec (.mountErasedMarkDone false) s = .next { s with
           array := marked i .erased .failed s.array
           ctrl := { s.ctrl with cur := some (.mountRetiredMark i) }
           mount := some { m with
             retiredBy := m.retiredBy + 1
             segs := m.segs.modify i fun _ => SegEntry.none_ } }) ∧
       (∀ j more ok, Running s (.mountRetiredMark i) → m.phase = .reErase (i :: j :: more) →
         exec (.mountRetiredMarkDone ok) s = .next { s with
           array := marked i .retired (if ok then .valid 0 else .failed) s.array
           ctrl := { s.ctrl with cur := some (.mountErase j) }
           mount := some { m with phase := .reErase (j :: more) } })) ∧
  (∀ s m i stamp, Running s (.mountOpenedMark i stamp) → s.mount = some m → i < m.segs.length →
     exec (.mountOpenedMarkDone true) s = .next { s with
       array := marked i .opened (.valid stamp) s.array
       ctrl := s.ctrl.rest
       mount := some { m with
         phase := .finished
         segs := m.segs.modify i fun e =>
           { e with
             state := .opened, stamp := some stamp, used := 0, live := 0, suspect := false
             pin := false, reclaimMarked := false } } } ∧
     exec (.mountOpenedMarkDone false) s = .next { s with
       array := marked i .opened .failed s.array
       ctrl := { s.ctrl with cur := some (.mountRetiredMark i) }
       mount := some { m with
         retiredBy := m.retiredBy + 1
         segs := m.segs.modify i fun _ => SegEntry.none_ } })

/-- Mount's end installs what it rebuilt, sets the gate from the policy and raises MOUNTED: READY
with a head, or READ_ONLY when the SN counter is spent (R61, R125, R126, R137). The pass of a
segment found RECLAIMING resumes at the end of mount: it reads its lowest needed record, or with
none asks for the ERASE mark; in READ_ONLY it stops at the first needed record, the segment still
RECLAIMING, and with none it completes all the same (R90, R126). -/
def Obligations.MountEndRaisesMounted : Prop :=
  (∀ s m, s.powered = true → s.rst = false → s.mount = some m → m.phase = .finished → SlotOpen s →
     (∀ e ∈ m.segs, e.state ≠ .reclaiming) →
     let ended (device : DeviceState) (cause : RoCause) : State :=
       replied
         (Notice.mounted device cause s.resetKind (liveTotal m.dir) (buriedTotal m.dir)
           (m.segs.filter fun e => e.state = .erased).length
           (m.segs.filter fun e => e.state = .retired).length m.discarded m.erasedBy m.retiredBy
           m.leftOut).out
         { s with
           mount := none
           dir := m.dir
           prot := { s.prot with
             settings := m.settings, gateOpen := decide (policyOf m.settings ≠ .passphrase) }
           log := { s.log with device := device, segs := m.segs, sn := m.sn, stamp := m.stamp } }
     NothingDue (ended .ready .noCause) m.dir →
     (headOf m.segs ≠ none → m.sn ≠ 4294967295 →
       exec .mountEnd s = .next (ended .ready .noCause)) ∧
       (m.sn = 4294967295 → exec .mountEnd s = .next (ended .readOnly .snExhaustion))) ∧
  (∀ s m v, s.powered = true → s.rst = false → s.mount = some m → m.phase = .finished →
     MountingInv s → s.ctrl.cur = none → reclaimingSeg m.segs = some v → 4 ≤ inUse m.segs →
     (segAt m.segs v).pin = false → (segAt m.segs v).suspect = false →
     let ended (device : DeviceState) (cause : RoCause) (reclaim : Reclaim) (op : Option ArrayOp) :
         State :=
       replied
         (Notice.mounted device cause s.resetKind (liveTotal m.dir) (buriedTotal m.dir)
           (m.segs.filter fun e => e.state = .erased).length
           (m.segs.filter fun e => e.state = .retired).length m.discarded m.erasedBy m.retiredBy
           m.leftOut).out
         { s with
           mount := none
           dir := m.dir
           prot := { s.prot with
             settings := m.settings, gateOpen := decide (policyOf m.settings ≠ .passphrase) }
           log := { s.log with device := device, segs := m.segs, sn := m.sn, stamp := m.stamp }
           reclaim := reclaim
           ctrl := { s.ctrl with cur := op } }
     let resumed : Reclaim := { s.reclaim with state := .copying, victim := some v }
     let erasing : Reclaim := { s.reclaim with state := .erasing, victim := some v }
     let needed := lowestNamed v 64 (ended .ready .noCause resumed none)
     (m.sn ≠ 4294967295 → headOf m.segs ≠ none →
       (∀ c, needed = some c →
         exec .mountEnd s = .next (ended .ready .noCause
           { resumed with copy := some c, position := c.loc.off + c.size }
           (some (.copyRead c.loc)))) ∧
       (needed = none →
         exec .mountEnd s = .next (ended .ready .noCause erasing (some (.eraseMark v))))) ∧
       (m.sn = 4294967295 →
         (∀ c, needed = some c →
           exec .mountEnd s = .next (ended .readOnly .snExhaustion s.reclaim none)) ∧
         (needed = none →
           exec .mountEnd s = .next (ended .readOnly .snExhaustion erasing (some (.eraseMark v))))))
end

