-- ==== Sys2Proof/Laws/Controller.lean ====
section
/-!
SUPPORT. What the array controller does with a request and at a completion, said once: when a requester
may have a request outstanding (R58), what an idle and what a busy controller does with it, and what a
completion leaves with nothing waiting (R58, R82).
-/

namespace Sys2Proof.Machine

open Sys2Proof

/-- A request is admitted when no other of its requester is outstanding. -/
theorem admits_of_none {c : Controller} {op : ArrayOp}
    (h : ∀ o ∈ c.outstanding, o.requester ≠ op.requester) : c.admits op = true := by
  simp only [Controller.admits, List.all_eq_true, Bool.or_eq_true, decide_eq_true_eq]
  exact fun o m => .inl (h o m)

/-- A controller with nothing in progress and nothing waiting admits any request, but for a request of
the reclaim unit beside its paused erase. -/
theorem admits_idle {c : Controller} (op : ArrayOp) (idle : c.cur = none) (empty : c.queue = [])
    (unpaused : op.requester ≠ .reclaim ∨ c.paused = none) : c.admits op = true := by
  refine admits_of_none fun o m => ?_
  simp only [Controller.outstanding, idle, empty, Option.toList_none, List.nil_append,
    Option.mem_toList, Option.map_eq_some_iff] at m
  obtain ⟨v, paused, rfl⟩ := m
  rcases unpaused with h | h
  · exact fun same => h same.symm
  · rw [h] at paused
    cases paused

/-- An admitted request starts at once on an idle controller, an erase with no pauses yet. -/
theorem ask_idle (op : ArrayOp) (s : State) (idle : s.ctrl.cur = none)
    (admitted : s.ctrl.admits op = true) :
    ask op s = { s with ctrl := s.ctrl.start op s.ctrl.queue } := by
  simp [ask, arrive, idle, admitted]

/-- A busy controller that does not erase lets an admitted request wait at the end of its queue. -/
theorem ask_waits (op cur : ArrayOp) (s : State) (busy : s.ctrl.cur = some cur)
    (other : ∀ v, cur ≠ .erase v) (admitted : s.ctrl.admits op = true) :
    ask op s = { s with ctrl := { s.ctrl with queue := s.ctrl.queue ++ [op] } } := by
  unfold ask arrive
  rw [admitted, busy]
  cases cur <;> simp_all

/-- A request that is not admitted is held back. -/
theorem ask_held (op : ArrayOp) (s : State) (refused : s.ctrl.admits op = false) :
    ask op s = { s with ctrl := { s.ctrl with held := s.ctrl.held ++ [op] } } := by
  simp [ask, refused]

/-- With nothing waiting, nothing held back and no erase paused, the controller is idle after a
completion. -/
theorem completeOp_rest (s : State) (queue : s.ctrl.queue = []) (held : s.ctrl.held = [])
    (paused : s.ctrl.paused = none) : completeOp s = { s with ctrl := s.ctrl.rest } := by
  simp [completeOp, Controller.release, resume, queue, held, paused, Controller.rest]

end Sys2Proof.Machine
end

