-- ==== Sys2Proof/Laws/Moves.lean ====
section
/-!
SUPPORT. What the blocks inside the part can do, said once. `Moves s t` says that `t` comes from `s` by
the primitive changes the blocks make: changes of the log, the reclaim unit, the group, the engine (its
context apart), the settings table and the directory, operations of the array controller, a frame that
enters the reply queue, and a notice raised. Every operation of Machine/Ops.lean, Owners.lean,
Placement.lean, Reclaim.lean and Arbiter.lean is such a chain, so a property kept by each primitive is
kept by all of them.
-/

namespace Sys2Proof.Machine

open Sys2Proof

/-- The primitive changes of the blocks inside the part, in any order and number. -/
inductive Moves : State → State → Prop
  | refl (s : State) : Moves s s
  | trans {s t u : State} : Moves s t → Moves t u → Moves s u
  | blocks (s : State) (e : Engine) (g : Group) (l : Log) (r : Reclaim) (ns : e.ns = s.engine.ns)
      (mode : e.mode = s.engine.mode) (mark : e.watermark = s.engine.watermark) :
      Moves s { s with engine := e, group := g, log := l, reclaim := r }
  | ask (s : State) (op : ArrayOp) : Moves s (Machine.ask op s)
  | completeOp (s : State) : Moves s (Machine.completeOp s)
  | dropGetReads (s : State) : Moves s (Machine.dropGetReads s)
  | enqueue (s : State) (o : Out) (free : slotFree s = true) (quiet : s.notices = []) :
      Moves s (Machine.enqueue o s)
  | raise (s : State) (n : Notice) : Moves s (Machine.raise n s)
  | dirPut (s : State) (e : Entry) : Moves s { s with dir := Machine.dirPut s.dir e }
  | dirDrop (s : State) (p : Entry → Bool) : Moves s { s with dir := s.dir.filter p }
  | settingsPut (s : State) (t : Setting) :
      Moves s { s with prot := { s.prot with settings := Machine.settingsPut s.prot.settings t } }

theorem Moves.log (s : State) (l : Log) : Moves s { s with log := l } :=
  .blocks s s.engine s.group l s.reclaim rfl rfl rfl

theorem Moves.reclaim (s : State) (r : Reclaim) : Moves s { s with reclaim := r } :=
  .blocks s s.engine s.group s.log r rfl rfl rfl

theorem Moves.logReclaim (s : State) (l : Log) (r : Reclaim) :
    Moves s { s with log := l, reclaim := r } :=
  .blocks s s.engine s.group l r rfl rfl rfl

theorem Moves.group (s : State) (g : Group) : Moves s { s with group := g } :=
  .blocks s s.engine g s.log s.reclaim rfl rfl rfl

theorem Moves.engine (s : State) (e : Engine) (ns : e.ns = s.engine.ns)
    (mode : e.mode = s.engine.mode) (mark : e.watermark = s.engine.watermark) :
    Moves s { s with engine := e } :=
  .blocks s e s.group s.log s.reclaim ns mode mark

/-! ## Ops.lean -/

theorem moves_modSeg (i : Nat) (f : SegEntry → SegEntry) (s : State) : Moves s (modSeg i f s) :=
  .log s _

theorem moves_addLive (i n : Nat) (s : State) : Moves s (addLive i n s) := .log s _

theorem moves_subLive (i n : Nat) (s : State) : Moves s (subLive i n s) := .log s _

theorem moves_markSuspect (i : Nat) (s : State) : Moves s (markSuspect i s) := .log s _

theorem moves_moveDecided (waiting : List Out) (s : State) : Moves s (moveDecided waiting s) := by
  induction waiting generalizing s with
  | nil => exact .engine s _ rfl rfl rfl
  | cons o rest ih =>
    unfold moveDecided
    split
    · rename_i h
      simp only [Bool.and_eq_true, List.isEmpty_iff] at h
      exact .trans (.enqueue s o h.1 h.2) (ih _)
    · exact .engine s _ rfl rfl rfl

theorem moves_settleReplies (s : State) : Moves s (settleReplies s) := by
  unfold settleReplies
  split
  · exact .engine s _ rfl rfl rfl
  · exact .refl s

theorem moves_decide (replies : List Out) (s : State) : Moves s (decide_ replies s) :=
  .trans
    (.engine s { s.engine with state := .replyWait, assembly := none, job := none, stream := none }
      rfl rfl rfl)
    (.trans (moves_moveDecided replies _) (moves_settleReplies _))

theorem moves_endRequest (status : Status) (payload : Bytes) (s : State) :
    Moves s (endRequest status payload s) := by
  unfold endRequest
  split
  · exact moves_decide _ s
  · split <;> exact moves_decide _ s

theorem moves_failGroup (s : State) : Moves s (failGroup s) := by
  unfold failGroup
  split
  · exact .group s _
  · exact .refl s

/-! ## Owners.lean -/

theorem moves_dropPrevious (ns : Nat) (key : Bytes) (s : State) : Moves s (dropPrevious ns key s) := by
  unfold dropPrevious
  split
  · split
    · exact moves_subLive _ _ s
    · exact .refl s
  · exact .refl s

theorem moves_putCompletion (ns : Nat) (key : Bytes) (sn length : Nat) (loc : Loc) (counted : Bool)
    (s : State) : Moves s (putCompletion ns key sn length loc counted s) := by
  unfold putCompletion
  refine .trans (moves_dropPrevious ns key s) ?_
  split
  · exact .dirPut _ _
  · exact .trans (moves_addLive _ _ _) (.dirPut _ _)

theorem moves_deleteCompletion (ns : Nat) (key : Bytes) (sn : Nat) (loc : Loc) (counted : Bool)
    (s : State) : Moves s (deleteCompletion ns key sn loc counted s) := by
  unfold deleteCompletion
  refine .trans (moves_dropPrevious ns key s) ?_
  split
  · exact .trans (moves_subLive _ _ _) (.dirPut _ _)
  · exact .dirPut _ _

theorem moves_buriedDrop (seg : Nat) (s : State) : Moves s (buriedDrop seg s) := .dirDrop s _

theorem moves_lostRemoval (ns : Nat) (key : Bytes) (version : Nat) (loc : Loc) (s : State) :
    Moves s (lostRemoval ns key version loc s) := by
  unfold lostRemoval
  split
  · split
    · exact .trans (.dirDrop s _) (.trans (moves_subLive _ _ _) (.raise _ _))
    · exact .refl s
  · exact .refl s

theorem moves_deadenAll (dir : List Entry) (s : State) : Moves s (deadenAll dir s) := by
  induction dir generalizing s with
  | nil => exact .refl s
  | cons e rest ih =>
    unfold deadenAll
    split
    · exact .trans (moves_subLive _ _ s) (ih _)
    · exact ih s

theorem moves_formatClearing (s : State) : Moves s (formatClearing s) := by
  unfold formatClearing
  refine .trans (moves_deadenAll s.dir s) ?_
  have h := Moves.dirDrop (deadenAll s.dir s) (fun _ => false)
  simpa using h

theorem moves_dirRelocation (c : Copy) (dest : Loc) (s : State) : Moves s (dirRelocation c dest s) := by
  unfold dirRelocation
  split
  · split
    · exact .trans (.dirPut s _) (.trans (moves_addLive _ _ _) (moves_subLive _ _ _))
    · exact .refl s
  · exact .refl s

theorem moves_stage (p : Pending) (s : State) : Moves s (stage p s) := by
  unfold stage
  dsimp only
  split
  · exact .trans (moves_subLive _ _ s) (.trans (moves_addLive _ _ _) (.group _ _))
  · exact .trans (moves_addLive _ _ s) (.group _ _)

theorem moves_applyPending (list : List Pending) (s : State) : Moves s (applyPending list s) := by
  induction list generalizing s with
  | nil => exact .refl s
  | cons p rest ih =>
    unfold applyPending
    dsimp only
    split
    · exact .trans (moves_putCompletion _ _ _ _ _ _ s) (ih _)
    · exact .trans (moves_deleteCompletion _ _ _ _ _ s) (ih _)

theorem moves_commitApplication (s : State) : Moves s (commitApplication s) :=
  .trans (moves_applyPending s.group.list s) (.blocks _ _ _ _ _ rfl rfl rfl)

theorem moves_deadenPending (list : List Pending) (s : State) : Moves s (deadenPending list s) := by
  induction list generalizing s with
  | nil => exact .refl s
  | cons p rest ih =>
    unfold deadenPending
    split
    · exact .trans (moves_subLive _ _ s) (ih _)
    · exact ih s

theorem moves_dropGroup (s : State) : Moves s (dropGroup s) :=
  .trans (moves_deadenPending s.group.list s) (.group _ _)

theorem moves_groupRelocation (c : Copy) (dest : Loc) (s : State) :
    Moves s (groupRelocation c dest s) := by
  unfold groupRelocation
  split
  · exact .trans (moves_addLive _ _ s) (.trans (moves_subLive _ _ _) (.group _ _))
  · exact .refl s

theorem moves_groupLost (c : Copy) (s : State) : Moves s (groupLost c s) := by
  unfold groupLost
  split
  · exact .trans (moves_subLive _ _ s) (.trans (.group _ _) (.trans (moves_failGroup _) (.raise _ _)))
  · exact .refl s

theorem moves_settingsWrite (t : Setting) (s : State) : Moves s (settingsWrite t s) := by
  unfold settingsWrite
  dsimp only
  split
  · exact .trans (moves_subLive _ _ s) (.trans (moves_addLive _ _ _) (.settingsPut _ t))
  · exact .trans (moves_addLive _ _ s) (.settingsPut _ t)

theorem moves_settingsRelocation (c : Copy) (dest : Loc) (s : State) :
    Moves s (settingsRelocation c dest s) := by
  unfold settingsRelocation
  split
  · exact .trans (moves_addLive _ _ s) (.trans (moves_subLive _ _ _) (.settingsPut _ _))
  · exact .refl s

theorem moves_relocate (c : Copy) (dest : Loc) (s : State) : Moves s (relocate c dest s) := by
  unfold relocate
  split
  · exact moves_dirRelocation c dest s
  · exact moves_groupRelocation c dest s
  · exact moves_settingsRelocation c dest s

/-! ## Placement.lean -/

theorem moves_jobGroupEffect (j : Job) (status : Status) (s : State) :
    Moves s (jobGroupEffect j status s) := by
  unfold jobGroupEffect returnReservation
  split <;> first
    | exact .refl s
    | (split <;> first
        | exact .refl s
        | exact moves_failGroup s
        | exact .group s _)

theorem moves_endJob (status : Status) (s : State) : Moves s (endJob status s) := by
  unfold endJob
  split
  · exact .refl s
  · exact .trans (.logReclaim s _ _) (.trans (moves_jobGroupEffect _ _ _) (moves_endRequest _ _ _))

theorem moves_endTidy (s : State) : Moves s (endTidy s) := by
  unfold endTidy
  split
  · exact .trans (.reclaim s _) (moves_endRequest _ _ _)
  · exact .refl s

theorem moves_stopPass (s : State) : Moves s (stopPass s) :=
  .trans (.logReclaim s _ _) (moves_endTidy _)

theorem moves_refuseEngine (s : State) : Moves s (refuseEngine s) := by
  unfold refuseEngine
  dsimp only
  split
  · split
    · exact .trans (.log s _) (moves_endJob _ _)
    · split
      · exact moves_endJob _ s
      · exact .refl s
  · split
    · exact moves_endJob _ s
    · exact .refl s

theorem moves_refuseCopy (s : State) : Moves s (refuseCopy s) := by
  unfold refuseCopy
  dsimp only
  split
  · split
    · exact .trans (.log s _) (moves_stopPass _)
    · split
      · exact moves_stopPass s
      · exact .refl s
  · split
    · exact moves_stopPass s
    · exact .refl s

theorem moves_enterReadOnly (cause : RoCause) (s : State) : Moves s (enterReadOnly cause s) := by
  unfold enterReadOnly
  split
  · exact .trans (.log s _) (.trans (moves_refuseEngine _) (.trans (moves_refuseCopy _)
      (.trans (moves_failGroup _) (.raise _ _))))
  · exact .refl s

theorem moves_raiseRetired (seg : Nat) (cause : RetireCause) (s : State) :
    Moves s (raiseRetired seg cause s) := .raise s _

theorem moves_retirementTest (s : State) : Moves s (retirementTest s) := by
  unfold retirementTest
  split
  · exact moves_enterReadOnly _ s
  · exact .refl s

theorem moves_occupy (g : Grant) (head : Nat) (s : State) : Moves s (occupy g head s) :=
  .trans (moves_modSeg head _ s) (.log _ _)

theorem moves_copyPlaced (record : Record) (loc : Loc) (s : State) :
    Moves s (copyPlaced record loc s) := .reclaim s _

theorem moves_enginePlaced (takesSn : Bool) (s : State) : Moves s (enginePlaced takesSn s) :=
  .blocks s _ _ _ _ rfl rfl rfl

theorem moves_exhaustionTest (s : State) : Moves s (exhaustionTest s) := by
  unfold exhaustionTest
  split
  · exact moves_enterReadOnly _ s
  · exact .refl s

theorem moves_placeAt (g : Grant) (head : Nat) (s : State) : Moves s (placeAt g head s) := by
  unfold placeAt
  dsimp only
  split
  · exact .trans (moves_occupy g head s) (.trans (moves_copyPlaced _ _ _) (.ask _ _))
  · have h : Moves s (ask (.programRecord (writeLoc head s) (placedRecord g s))
        (enginePlaced (!g.retry) (occupy g head s))) :=
      .trans (moves_occupy g head s) (.trans (moves_enginePlaced _ _) (.ask _ _))
    split
    · exact h
    · exact .trans h (moves_exhaustionTest _)

theorem moves_openHead (g : Grant) (s : State) : Moves s (openHead g s) := by
  unfold openHead
  split
  · exact .trans (.log s _) (moves_enterReadOnly _ _)
  · split
    · exact .refl s
    · exact .trans (.log s _) (.ask _ _)

theorem moves_placeOrOpen (g : Grant) (s : State) : Moves s (placeOrOpen g s) := by
  unfold placeOrOpen
  split
  · split
    · exact moves_placeAt g _ s
    · exact moves_openHead g s
  · exact moves_openHead g s

theorem moves_raiseSpaceLow (size : Nat) (s : State) : Moves s (raiseSpaceLow size s) := .raise s _

/-! ## Reclaim.lean -/

theorem moves_testBackground (s : State) : Moves s (testBackground s) := by
  unfold testBackground
  split
  · exact .reclaim s _
  · split
    · exact .reclaim s _
    · exact .refl s

theorem moves_takeAppendPoint (j : Job) (s : State) : Moves s (takeAppendPoint j s) := by
  unfold takeAppendPoint
  split
  · exact moves_endJob _ s
  · exact moves_placeOrOpen _ s

theorem moves_reexamine (s : State) : Moves s (reexamine s) := by
  unfold reexamine
  split
  · exact .refl s
  · split
    · split
      · dsimp only
        split
        · exact .trans (.reclaim s _) (moves_takeAppendPoint _ _)
        · exact .logReclaim s _ _
      · split
        · exact .refl s
        · exact .trans (moves_raiseSpaceLow _ s) (moves_endJob _ _)
    · exact .refl s

theorem moves_countPass (freed : Nat) (s : State) : Moves s (countPass freed s) := by
  unfold countPass
  split
  · exact .reclaim s _
  · exact .refl s

theorem moves_tidyTest (s : State) : Moves s (tidyTest s) := by
  unfold tidyTest
  split
  · exact moves_endTidy s
  · exact .refl s

theorem moves_completePassWith (weigh : State → State) (hw : ∀ s, Moves s (weigh s)) (freed : Nat)
    (s : State) : Moves s (completePassWith weigh freed s) :=
  .trans (.reclaim s _) (.trans (moves_countPass freed _) (.trans (moves_reexamine _)
    (.trans (moves_testBackground _) (.trans (moves_tidyTest _) (hw _)))))

theorem moves_retireVictimWith (weigh : State → State) (hw : ∀ s, Moves s (weigh s)) (v : Nat)
    (cause : RetireCause) (s : State) : Moves s (retireVictimWith weigh v cause s) :=
  .trans (.ask s _) (.trans (moves_modSeg v _ _) (.trans (moves_buriedDrop v _)
    (.trans (moves_raiseRetired v cause _) (.trans (moves_retirementTest _)
      (moves_completePassWith weigh hw 0 _)))))

theorem moves_leaveWalkWith (weigh : State → State) (hw : ∀ s, Moves s (weigh s)) (v : Nat)
    (s : State) : Moves s (leaveWalkWith weigh v s) := by
  unfold leaveWalkWith
  split
  · exact .reclaim s _
  · split
    · exact moves_retireVictimWith weigh hw v _ s
    · exact .trans (.reclaim s _) (.ask _ _)

theorem moves_walkStepWith (weigh : State → State) (hw : ∀ s, Moves s (weigh s)) (s : State) :
    Moves s (walkStepWith weigh s) := by
  unfold walkStepWith
  split
  · exact .refl s
  · split
    · exact .trans (.reclaim s _) (.ask _ _)
    · exact .trans (.reclaim s _) (moves_leaveWalkWith weigh hw _ _)

theorem moves_startPass (v : Nat) (s : State) : Moves s (startPass v s) :=
  .trans (moves_modSeg v _ s) (.reclaim _ _)

theorem moves_beginPassWith (weigh : State → State) (hw : ∀ s, Moves s (weigh s)) (s : State) :
    Moves s (beginPassWith weigh s) := by
  unfold beginPassWith
  split
  · exact .refl s
  · split
    · exact .trans (moves_startPass _ s) (moves_walkStepWith weigh hw _)
    · exact .trans (moves_startPass _ s) (.ask _ _)

theorem moves_weighPassWithin (n : Nat) (s : State) : Moves s (weighPassWithin n s) := by
  induction n generalizing s with
  | zero => exact .refl s
  | succ n ih =>
    unfold weighPassWithin
    split
    · exact moves_beginPassWith _ ih s
    · exact .refl s

theorem moves_weighPass (s : State) : Moves s (weighPass s) := moves_weighPassWithin _ s

theorem moves_walkStep (s : State) : Moves s (walkStep s) := moves_walkStepWith _ moves_weighPass s

theorem moves_leaveWalk (v : Nat) (s : State) : Moves s (leaveWalk v s) :=
  moves_leaveWalkWith _ moves_weighPass v s

theorem moves_retireVictim (v : Nat) (cause : RetireCause) (s : State) :
    Moves s (retireVictim v cause s) := moves_retireVictimWith _ moves_weighPass v cause s

theorem moves_completePass (freed : Nat) (s : State) : Moves s (completePass freed s) :=
  moves_completePassWith _ moves_weighPass freed s

theorem moves_backgroundEvent (s : State) : Moves s (backgroundEvent s) :=
  .trans (moves_testBackground s) (moves_weighPass _)

theorem moves_releasePin (seg : Nat) (s : State) : Moves s (releasePin seg s) := by
  unfold releasePin
  dsimp only
  split
  · exact .trans (moves_modSeg seg _ s) (moves_leaveWalk seg _)
  · exact moves_modSeg seg _ s

/-! ## Arbiter.lean -/

theorem moves_waitForSpace (s : State) : Moves s (waitForSpace s) :=
  .blocks s _ _ _ _ rfl rfl rfl

theorem moves_startJob (j : Job) (s : State) : Moves s (startJob j s) :=
  .blocks s _ _ _ _ rfl rfl rfl

theorem moves_needForSpace (j : Job) (s : State) : Moves s (needForSpace j s) := by
  unfold needForSpace
  split
  · exact .trans (moves_waitForSpace s) (moves_weighPass _)
  · exact .trans (moves_raiseSpaceLow _ s) (moves_endJob _ _)

theorem moves_attemptEngine (s : State) : Moves s (attemptEngine s) := by
  unfold attemptEngine
  dsimp only
  split
  · exact .log s _
  · refine .trans (.log s { s.log with engineWaits := false }) ?_
    split
    · exact moves_endJob _ _
    · split
      · exact moves_endJob _ _
      · split
        · exact moves_placeOrOpen _ _
        · exact moves_needForSpace _ _

theorem moves_attemptCopyWith (record : Record) (retry : Bool) (s : State) :
    Moves s (attemptCopyWith record retry s) := by
  unfold attemptCopyWith
  dsimp only
  split
  · exact .trans (.log s _) (moves_stopPass _)
  · split
    · exact moves_placeOrOpen _ s
    · exact .trans (.log s _) (moves_enterReadOnly _ _)

theorem moves_attemptCopy (s : State) : Moves s (attemptCopy s) := by
  unfold attemptCopy
  dsimp only
  refine .trans (.log s { s.log with copyWaits := false }) ?_
  split
  · split
    · exact moves_attemptCopyWith _ _ _
    · exact .refl _
  · exact .refl _

theorem moves_thenCopy (s : State) : Moves s (thenCopy s) := by
  unfold thenCopy
  split
  · exact moves_attemptCopy s
  · exact .refl s

theorem moves_thenEngine (s : State) : Moves s (thenEngine s) := by
  unfold thenEngine
  split
  · exact moves_attemptEngine s
  · exact .refl s

theorem moves_grantNext (s : State) : Moves s (grantNext s) := by
  unfold grantNext
  split
  · exact .refl s
  · split
    · split
      · exact .trans (moves_attemptEngine s) (moves_thenCopy _)
      · exact .trans (moves_attemptCopy s) (moves_thenEngine _)
    · split
      · exact .trans (moves_attemptEngine s) (moves_thenCopy _)
      · split
        · exact .trans (moves_attemptCopy s) (moves_thenEngine _)
        · exact .refl s

theorem moves_handOver (j : Job) (s : State) : Moves s (handOver j s) := by
  unfold handOver
  dsimp only
  split
  · exact .trans (moves_startJob j s) (moves_attemptEngine _)
  · split
    · exact .trans (moves_startJob j s) (moves_endJob _ _)
    · exact .trans (moves_startJob j s) (.log _ _)

theorem moves_claimCopy (s : State) : Moves s (claimCopy s) := by
  unfold claimCopy
  split
  · exact moves_stopPass s
  · split
    · exact moves_attemptCopy s
    · exact .log s _

theorem moves_attemptRetry (g : Grant) (s : State) : Moves s (attemptRetry g s) := by
  unfold attemptRetry
  split
  · exact moves_attemptCopyWith _ _ s
  · split
    · exact moves_openHead _ s
    · exact .trans (.log s _) (moves_endJob _ _)

/-! ## What no block inside the part touches -/

/-- The pins, the port, the inbound queue, the array, mount, the context, the locks, the gate, the
failed-unlock counter and the queue of commands. -/
structure SameOutside (s t : State) : Prop where
  powered : t.powered = s.powered
  rst : t.rst = s.rst
  sel : t.sel = s.sel
  resetKind : t.resetKind = s.resetKind
  port : t.port = s.port
  inbound : t.inbound = s.inbound
  array : t.array = s.array
  mount : t.mount = s.mount
  free : t.free = s.free
  pending : t.pending = s.pending
  ns : t.engine.ns = s.engine.ns
  mode : t.engine.mode = s.engine.mode
  watermark : t.engine.watermark = s.engine.watermark
  sessionLocks : t.prot.sessionLocks = s.prot.sessionLocks
  lockdowns : t.prot.lockdowns = s.prot.lockdowns
  gateOpen : t.prot.gateOpen = s.prot.gateOpen
  unlockFails : t.prot.unlockFails = s.prot.unlockFails

theorem SameOutside.refl (s : State) : SameOutside s s := by constructor <;> rfl

theorem SameOutside.trans {s t u : State} (h : SameOutside s t) (k : SameOutside t u) :
    SameOutside s u :=
  ⟨k.powered.trans h.powered, k.rst.trans h.rst, k.sel.trans h.sel, k.resetKind.trans h.resetKind,
    k.port.trans h.port, k.inbound.trans h.inbound, k.array.trans h.array, k.mount.trans h.mount,
    k.free.trans h.free, k.pending.trans h.pending, k.ns.trans h.ns, k.mode.trans h.mode,
    k.watermark.trans h.watermark, k.sessionLocks.trans h.sessionLocks,
    k.lockdowns.trans h.lockdowns, k.gateOpen.trans h.gateOpen, k.unlockFails.trans h.unlockFails⟩

theorem sameOutside_arrive (op : ArrayOp) (s : State) : SameOutside s (arrive op s) := by
  unfold arrive pauseErase
  dsimp only
  split
  · constructor <;> rfl
  · split
    · split <;> constructor <;> rfl
    · constructor <;> rfl
  · constructor <;> rfl

theorem sameOutside_ask (op : ArrayOp) (s : State) : SameOutside s (ask op s) := by
  unfold ask
  split
  · exact sameOutside_arrive op s
  · constructor <;> rfl

theorem sameOutside_completeOp (s : State) : SameOutside s (completeOp s) := by
  unfold completeOp resume
  split
  · constructor <;> rfl
  · split <;> constructor <;> rfl

theorem sameOutside_moveNotices (pending : List Notice) (s : State) :
    SameOutside s (moveNotices pending s) := by
  induction pending generalizing s with
  | nil => constructor <;> rfl
  | cons n rest ih =>
    unfold moveNotices
    split
    · exact .trans (by constructor <;> rfl) (ih (enqueue n.out s))
    · constructor <;> rfl

theorem sameOutside_raise (n : Notice) (s : State) : SameOutside s (raise n s) :=
  .trans (t := { s with notices := addNotice n s.notices }) (by constructor <;> rfl)
    (sameOutside_moveNotices _ _)

/-- No chain of the blocks' changes touches what stands outside them. -/
theorem Moves.sameOutside {s t : State} (h : Moves s t) : SameOutside s t := by
  induction h with
  | refl s => exact .refl s
  | trans _ _ ih₁ ih₂ => exact .trans ih₁ ih₂
  | blocks s e g l r ns mode mark => exact ⟨rfl, rfl, rfl, rfl, rfl, rfl, rfl, rfl, rfl, rfl, ns, mode, mark, rfl, rfl, rfl, rfl⟩
  | ask s op => exact sameOutside_ask op s
  | completeOp s => exact sameOutside_completeOp s
  | raise s n => exact sameOutside_raise n s
  | _ => constructor <;> rfl

end Sys2Proof.Machine
end

