-- ==== Sys2Proof/Laws/Passes.lean ====
section
/-!
SUPPORT. What the choice of a new head and one step of a pass do, said once: a record that does not fit
opens a head (R53, R54), the walk asks for the lowest needed record or, with none, for the ERASE mark
(R75, R80, R81), the thresholds set the flag of R70, a pass starts over the next victim or does not (R72,
R73), and a pin released ends PIN_WAIT (R80).
-/

namespace Sys2Proof.Machine

open Sys2Proof

/-- A record that does not fit the head opens one. -/
theorem placeOrOpen_full {s : State} {g : Grant} (full : fitsHead s.log.segs g.record.size = false) :
    placeOrOpen g s = openHead g s := by
  unfold placeOrOpen
  rw [full]
  cases headOf s.log.segs <;> rfl

/-- Opening a head takes a stamp and asks for the OPENED mark of the segment chosen. -/
theorem openHead_asks {s : State} {g : Grant} {w : Nat} (more : s.log.stamp ≠ 4294967295)
    (choice : chooseHead s.log.segs = some w) :
    openHead g s = ask (.openedMark w s.log.stamp)
      { s with log := { s.log with
          grant := some { g with stage := .opening w }, stamp := s.log.stamp + 1 } } := by
  have : ¬ s.log.stamp = Config.counterEnd := more
  unfold openHead
  rw [if_neg this, choice]

/-! ## Thresholds and the start of a pass -/

/-- A test of the thresholds leaves the flag of R70 and changes nothing else. -/
theorem testBackground_flagTested (s : State) : testBackground s = flagTested s.log.segs s.dir s := by
  have stop : backgroundStop s = true ↔
      ((6 ≤ (s.log.segs.filter fun e => e.state = .erased).length ∧
        (s.dir.filter fun e => !e.isLive).length < 32) ∨ reclaimable s.log.segs = 0 ∨
        ∀ e ∈ s.log.segs, e.state ≠ .filled) := by
    unfold backgroundStop anyFilled erasedCount countSegs buriedTotal
    simp only [Bool.or_eq_true, Bool.and_eq_true, decide_eq_true_eq, Bool.not_eq_true',
      decide_eq_false_iff_not, or_assoc]
    rw [Nat.pos_iff_ne_zero, not_not, List.length_eq_zero_iff, List.filter_eq_nil_iff]
    simp
  have start : backgroundStart s = true ↔
      ((s.log.segs.filter fun e => e.state = .erased).length ≤ 3 ∨
        64 ≤ (s.dir.filter fun e => !e.isLive).length) := by
    unfold backgroundStart erasedCount countSegs buriedTotal
    simp
  unfold testBackground flagTested flagAfterTest
  dsimp only
  by_cases a : backgroundStop s = true
  · rw [if_pos a, if_pos (stop.1 a)]
  · rw [if_neg a, if_neg fun h => a (stop.2 h)]
    by_cases b : backgroundStart s = true
    · rw [if_pos b, if_pos (start.1 b)]
    · rw [if_neg b, if_neg fun h => b (start.2 h)]

/-- A segment chosen by least measure is one of the candidates. -/
theorem leastSeg_mem {segs : List SegEntry} {p : SegEntry → Bool} {measure : SegEntry → Nat} {w : Nat}
    (chosen : leastSeg segs p measure = some w) : w < segs.length ∧ p (segAt segs w) = true := by
  unfold leastSeg at chosen
  suffices H : ∀ (todo : List Nat) (best : Option Nat),
      (∀ x, best = some x → x < segs.length ∧ p (segAt segs x) = true) →
      (∀ i ∈ todo, i < segs.length) →
      ∀ x, todo.foldl
        (fun best i =>
          if p (segAt segs i) then
            match best with
            | some b => if measure (segAt segs i) < measure (segAt segs b) then some i else some b
            | none => some i
          else best)
        best = some x → x < segs.length ∧ p (segAt segs x) = true from
    H _ none nofun (by simp) w chosen
  intro todo
  induction todo with
  | nil => exact fun best ok _ x h => ok x h
  | cons i rest ih =>
    intro best ok inside x h
    refine ih _ ?_ (fun j m => inside j (List.mem_cons_of_mem _ m)) x h
    intro y hy
    have hi := inside i List.mem_cons_self
    dsimp only at hy
    split at hy
    · rename_i hp
      split at hy
      · split at hy
        · cases hy
          exact ⟨hi, hp⟩
        · cases hy
          exact ok _ rfl
      · cases hy
        exact ⟨hi, hp⟩
    · exact ok y hy

/-- With a victim there is a FILLED segment. -/
theorem anyFilled_of_victim {s : State} {w : Nat} (h : chooseVictim s.log.segs = some w) :
    anyFilled s = true := by
  obtain ⟨inside, filled⟩ := leastSeg_mem h
  unfold anyFilled countSegs
  rw [decide_eq_true_eq, List.length_pos_iff_exists_mem]
  exact ⟨segAt s.log.segs w,
    List.mem_filter.2 ⟨by simp [segAt, List.getD_eq_getElem?_getD, inside], filled⟩⟩

/-- A pass that is due starts over the next victim, whose RECLAIM mark is asked for. -/
theorem weighPass_begins {s : State} {w : Nat} (idle : s.reclaim.state = .idle)
    (device : s.log.device = .ready)
    (due : s.reclaim.foreground = true ∨ 0 < s.reclaim.tidyRemaining ∨ s.reclaim.background = true)
    (victim : NextVictim s.log.segs w) :
    weighPass s = ask (.reclaimMark w) (passBegun w s.ctrl s) := by
  show weighPassWithin (Config.segments + 1) s = _
  unfold weighPassWithin
  rw [if_pos]
  · unfold beginPassWith
    rw [victim.chosen]
    dsimp only
    rw [if_neg (by rw [victim.unmarked]; decide)]
    rfl
  · unfold passDue
    rw [anyFilled_of_victim victim.chosen, idle, device]
    rcases due with h | h | h <;> simp [h]

/-- No pass starts while one is in hand. -/
theorem weighPass_busy {s : State} (busy : s.reclaim.state ≠ .idle) : weighPass s = s := by
  simp [weighPass, weighPassWithin, passDue, busy]

/-- No pass starts without a need. -/
theorem weighPass_needless {s : State} (foreground : s.reclaim.foreground = false)
    (tidy : s.reclaim.tidyRemaining = 0) (background : s.reclaim.background = false) :
    weighPass s = s := by
  simp [weighPass, weighPassWithin, passDue, foreground, tidy, background]

/-- No pass starts in READ_ONLY. -/
theorem weighPass_readOnly {s : State} (device : s.log.device = .readOnly) : weighPass s = s := by
  simp [weighPass, weighPassWithin, passDue, device]

/-- The walk takes the lowest needed record as the copy in hand and, on an idle controller, reads it. -/
theorem walkStep_reads {s : State} {v : Nat} {c : Copy} (victim : s.reclaim.victim = some v)
    (idle : s.ctrl.cur = none) (empty : s.ctrl.queue = []) (unpaused : s.ctrl.paused = none)
    (lowest : lowestNamed v s.reclaim.position s = some c) :
    walkStep s = { s with
      reclaim := { s.reclaim with copy := some c, position := c.loc.off + c.size }
      ctrl := { s.ctrl with cur := some (.copyRead c.loc) } } := by
  unfold walkStep walkStepWith
  rw [victim]
  dsimp only
  rw [lowest]
  dsimp only
  rw [ask_idle _ _ (by exact idle)
    (admits_idle _ (by exact idle) (by exact empty) (.inr (by exact unpaused)))]
  rfl

/-- With no needed record left, no pin and no suspicion, the walk asks for the ERASE mark. -/
theorem walkStep_erases {s : State} {v : Nat} (victim : s.reclaim.victim = some v)
    (idle : s.ctrl.cur = none) (empty : s.ctrl.queue = []) (unpaused : s.ctrl.paused = none)
    (unpinned : (segAt s.log.segs v).pin = false) (sound : (segAt s.log.segs v).suspect = false)
    (done : lowestNamed v s.reclaim.position s = none) :
    walkStep s = { s with
      reclaim := { s.reclaim with copy := none, state := .erasing }
      ctrl := { s.ctrl with cur := some (.eraseMark v) } } := by
  unfold walkStep walkStepWith
  rw [victim]
  dsimp only
  rw [done]
  unfold leaveWalkWith
  dsimp only
  rw [if_neg (by simp [unpinned]), if_neg (by simp [sound]),
    ask_idle _ _ (by exact idle)
    (admits_idle _ (by exact idle) (by exact empty) (.inr (by exact unpaused)))]
  rfl

/-! ## The release of a pin -/

/-- A pin released that no pass waits for changes the segment's pin alone. -/
theorem releasePin_plain {s : State} {seg : Nat}
    (other : s.reclaim.state = .pinWait → s.reclaim.victim ≠ some seg) :
    releasePin seg s = modSeg seg (fun e => { e with pin := false }) s :=
  if_neg fun h => other h.1 h.2

/-- A pin released in PIN_WAIT on a sound victim has the ERASE mark asked for. -/
theorem releasePin_erases {s : State} {seg : Nat} (waits : s.reclaim.state = .pinWait)
    (victim : s.reclaim.victim = some seg) (sound : (segAt s.log.segs seg).suspect = false) :
    releasePin seg s = ask (.eraseMark seg)
      { modSeg seg (fun e => { e with pin := false }) s with
        reclaim := { s.reclaim with state := .erasing } } := by
  have free : (segAt (s.log.segs.modify seg fun e => { e with pin := false }) seg).pin = false := by
    unfold segAt
    rw [List.getD_eq_getElem?_getD, List.getElem?_modify]
    cases s.log.segs[seg]? <;> simp [SegEntry.none_]
  have same : (segAt (s.log.segs.modify seg fun e => { e with pin := false }) seg).suspect = false := by
    rw [← sound]
    unfold segAt
    rw [List.getD_eq_getElem?_getD, List.getD_eq_getElem?_getD, List.getElem?_modify]
    cases s.log.segs[seg]? <;> simp [SegEntry.none_]
  unfold releasePin
  dsimp only
  rw [if_pos (by exact ⟨waits, victim⟩)]
  unfold leaveWalk leaveWalkWith
  rw [if_neg (by simpa [modSeg] using free), if_neg (by simpa [modSeg] using same)]
  rfl

end Sys2Proof.Machine
end

