-- ==== Sys2Proof/Laws/Replies.lean ====
section
/-!
SUPPORT. What the ends of requests and the hand-over of a record leave, said once: a reply queued at
once (R149, R151, R156), a reply omitted (R155), a frame answered at its take, and a record placed at
once (R49 to R55). A proof about a request cites these and does not unfold the operations.
-/

namespace Sys2Proof.Machine

open Sys2Proof

theorem slotFree_of_open {s : State} (h : SlotOpen s) : slotFree s = true := by
  simp [slotFree, Config.replySlots, h.slot]

/-- A reply decided with a slot open is queued, and the engine is IDLE. -/
theorem decide_one {s : State} (h : SlotOpen s) (unbroken : s.engine.breaking = none) (o : Out) :
    decide_ [o] s = replied o { s with engine := s.engine.toIdle } := by
  have h₁ := slotFree_of_open h
  unfold slotFree at h₁
  simp [decide_, settleReplies, moveDecided, slotFree, h₁, h.quiet, enqueue, replied, unbroken,
    Engine.toIdle]

/-- No reply to queue: the engine is IDLE. -/
theorem decide_none {s : State} (unbroken : s.engine.breaking = none) :
    decide_ [] s = { s with engine := s.engine.toIdle } := by
  simp [decide_, settleReplies, moveDecided, unbroken, Engine.toIdle]

/-- The current request ends with a reply its mode does not omit. -/
theorem endRequest_concludes {s : State} {r : Request} (h : SlotOpen s)
    (unbroken : s.engine.breaking = none) (request : s.engine.request = some r) (status : Status)
    (payload : Bytes) (queued : omitted r.kind status r.mode = false) :
    endRequest status payload s = concluded r status payload s := by
  unfold endRequest
  rw [request]
  simp only [queued, Bool.false_eq_true, if_false]
  rw [decide_one h unbroken]
  rfl

/-- The current request ends with a reply its mode omits. -/
theorem endRequest_omits {s : State} {r : Request} (unbroken : s.engine.breaking = none)
    (request : s.engine.request = some r) (status : Status) (payload : Bytes)
    (silent : omitted r.kind status r.mode = true) :
    endRequest status payload s = { s with engine := s.engine.toIdle } := by
  unfold endRequest
  rw [request]
  simp only [silent, if_true]
  exact decide_none unbroken

/-- An engine at rest has no frame that breaks an assembly. -/
theorem breaking_of_rest {e : Engine} (h : e.toIdle = e) : e.breaking = none := by
  rw [← h]; rfl

theorem state_of_rest {e : Engine} (h : e.toIdle = e) : e.state = .idle := by
  rw [← h]; rfl

/-- A frame answered at its take, after changes `g` that leave the engine and the queues alone. -/
theorem endRequest_answers {s s₁ : State} {f : Frame} {rest : List Frame} (h : AtTake s f rest)
    (engine : s₁.engine = { s.engine with request := some (requestOf f s) })
    (replies : s₁.replies = s.replies) (notices : s₁.notices = s.notices)
    (status : Status) (payload : Bytes) (queued : omitted f.kind status s.engine.mode = false) :
    endRequest status payload s₁ =
      replied { kind := f.kind + 0x80, tag := f.tag, status := status, payload := payload }
        { s₁ with engine := s.engine } := by
  have idle := h.idle
  rw [endRequest_concludes (r := requestOf f s) ⟨by rw [replies]; exact h.slot, by rw [notices]; exact h.quiet⟩
    (by rw [engine]; exact breaking_of_rest (e := s.engine) h.idle) (by rw [engine]) status payload queued]
  unfold concluded
  have : s₁.engine.toIdle = s.engine := by rw [engine]; exact idle
  rw [this]
  rfl

/-! ## The head of the inbound queue -/

/-- From IDLE the head is taken. -/
theorem takeHead_idle {s : State} {f : Frame} {rest : List Frame} (h : AtTake s f rest)
    (sort : Frame → Bool) (fits : sort f = true) :
    takeHead sort s = handleFrame f { s with inbound := rest } := by
  have state := state_of_rest h.idle
  have slot : slotFree s = true := slotFree_of_open ⟨h.slot, h.quiet⟩
  simp [takeHead, h.head, running, h.powered, h.rst, h.mounted, fits, mayTake, state, slot, takeFrame]

theorem takeKind_idle {s : State} {f : Frame} {rest : List Frame} (h : AtTake s f rest)
    (kind : Byte) (fits : f.kind = kind) :
    takeKind kind s = handleFrame f { s with inbound := rest } :=
  takeHead_idle h _ (by simp [fits])

/-! ## Hand-over -/

theorem fitsHead_of {s : State} {head size : Nat} (h : PlacesAtOnce s head size) :
    fitsHead s.log.segs size = true := by
  have := h.fits
  simp [fitsHead, headFree, h.isHead, h.sound, Config.recordArea]
  omega

/-- A record handed over is placed at once. -/
theorem handOver_places {s : State} {j : Job} {head : Nat} (h : PlacesAtOnce s head j.record.size)
    (whole : commitLost j s = false) : handOver j s = placed j head s := by
  have fit := fitsHead_of h
  have more := h.more
  unfold Record.size at fit
  unfold commitLost at whole
  simp only [Bool.and_eq_false_imp, decide_eq_true_eq, decide_eq_false_iff_not] at whole
  have admitted (r : Record) (loc : Loc) : s.ctrl.admits (.programRecord loc r) = true :=
    admits_idle _ h.idle h.empty (.inl (by simp [ArrayOp.requester]))
  simp [handOver, startJob, h.free, attemptEngine, h.ready, commitLost, engineMayPlace, fit,
    placeOrOpen, h.isHead, Grant.ofJob, placeAt, placedRecord, occupy, writeLoc, enginePlaced, ask,
    arrive, admitted, modSeg, exhaustionTest, Controller.start, h.idle, h.empty, placed, more,
    Config.counterEnd, Config.descriptorBytes, Record.size]
  intro hp hq
  exact absurd (of_decide_eq_true hq) (whole hp)

end Sys2Proof.Machine
end

