-- ==== Sys2Proof/Laws/Quiet.lean ====
section
/-!
SUPPORT. What the shared operations leave when nothing follows them: the thresholds and the arbiter with
nothing due (R55, R70, R72), a notice raised with a slot open (R157), and the segment counts under
changes that leave the states of segments alone (R45, R47).
-/

namespace Sys2Proof.Machine

open Sys2Proof

/-! ## Notices -/

/-- A notice raised with a slot open enters the reply queue at once. -/
theorem raise_open (n : Notice) {s : State} (h : SlotOpen s) : raise n s = replied n.out s := by
  have := slotFree_of_open h
  unfold slotFree at this
  simp [raise, drainNotices, h.quiet, addNotice, moveNotices, slotFree, this, enqueue, replied]

/-! ## Segment counts -/

theorem countSegs_modify (segs : List SegEntry) (i : Nat) (f : SegEntry → SegEntry)
    (same : ∀ e, (f e).state = e.state) (st : SegState) :
    countSegs (segs.modify i f) st = countSegs segs st := by
  unfold countSegs
  induction segs generalizing i with
  | nil => cases i <;> rfl
  | cons e rest ih =>
    cases i with
    | zero => simp [List.filter_cons, same]; split <;> rfl
    | succ i =>
      have := ih i
      simp only [List.modify_succ_cons, List.filter_cons]
      split <;> simp_all

theorem erasedCount_modify (segs : List SegEntry) (i : Nat) (f : SegEntry → SegEntry)
    (same : ∀ e, (f e).state = e.state) :
    erasedCount (segs.modify i f) = erasedCount segs := countSegs_modify segs i f same .erased

theorem erasedCount_livened (segs : List SegEntry) (i n : Nat) :
    erasedCount (livened i n segs) = erasedCount segs := erasedCount_modify _ _ _ fun _ => rfl

theorem erasedCount_deadened (segs : List SegEntry) (i n : Nat) :
    erasedCount (deadened i n segs) = erasedCount segs := erasedCount_modify _ _ _ fun _ => rfl

/-! ## Thresholds and arbiter -/

/-- With nothing due the thresholds start no pass. -/
theorem backgroundEvent_nothingDue {s : State} (h : NothingDue s s.dir) : backgroundEvent s = s := by
  have e := h.erased
  have b := h.buried
  have start : backgroundStart s = false := by
    simp only [backgroundStart, Bool.or_eq_false_iff, decide_eq_false_iff_not]
    omega
  have same : ({ s with reclaim := { s.reclaim with background := false } } : State) = s := by
    rw [← h.background]
  have due : passDue s = false := by
    simp [passDue, h.foreground, h.tidy, h.background]
  have test : testBackground s = s := by
    unfold testBackground
    rw [start, same]
    simp
  unfold backgroundEvent
  rw [test]
  simp [weighPass, weighPassWithin, due]

/-- With no claimant waiting nothing is granted. -/
theorem grantNext_nothingWaits {s : State} (engine : s.log.engineWaits = false)
    (copy : s.log.copyWaits = false) : grantNext s = s := by
  simp [grantNext, engine, copy]

end Sys2Proof.Machine
end

