-- ==== Sys2Proof/Laws/State.lean ====
section
/-!
SUPPORT. One lemma for each field of State and each named update of the model, all by `rfl`, so that no
proof unfolds an update; and one lemma that says each narrower update is one of these.
-/

namespace Sys2Proof.Machine

open Sys2Proof

/-! ## Narrower updates -/

theorem addLive_eq (i n : Nat) (s : State) :
    addLive i n s = modSeg i (fun e => { e with live := e.live + n }) s := rfl

theorem subLive_eq (i n : Nat) (s : State) :
    subLive i n s = modSeg i (fun e => { e with live := e.live - n }) s := rfl

theorem markSuspect_eq (i : Nat) (s : State) :
    markSuspect i s = modSeg i (fun e => { e with suspect := true }) s := rfl

theorem eraseArray_eq (i : Nat) (s : State) :
    eraseArray i s = modArray i (fun _ => ArraySeg.blank) s := rfl

theorem writeMark_eq (i : Nat) (p : MarkPos) (carried : Nat) (ok : Bool) (s : State) :
    writeMark i p carried ok s =
      modArray i
        (fun a => { a with marks := a.marks.put p (if ok then .valid carried else .failed) }) s := rfl

theorem writeSlot_eq (loc : Loc) (record : Record) (whole : Bool) (s : State) :
    writeSlot loc record whole s =
      modArray loc.seg
        (fun a =>
          { a with slots := a.slots ++
              [{ off := loc.off, size := record.size
                 record := if whole then some record else none
                 residue := if whole then 0 else s.free }] }) s := rfl

/-! ## `modSeg`: an entry of the segment table changes -/

@[simp] theorem modSeg_powered (i : Nat) (f : SegEntry → SegEntry) (s : State) :
    (modSeg i f s).powered = s.powered := rfl
@[simp] theorem modSeg_rst (i : Nat) (f : SegEntry → SegEntry) (s : State) :
    (modSeg i f s).rst = s.rst := rfl
@[simp] theorem modSeg_sel (i : Nat) (f : SegEntry → SegEntry) (s : State) :
    (modSeg i f s).sel = s.sel := rfl
@[simp] theorem modSeg_resetKind (i : Nat) (f : SegEntry → SegEntry) (s : State) :
    (modSeg i f s).resetKind = s.resetKind := rfl
@[simp] theorem modSeg_port (i : Nat) (f : SegEntry → SegEntry) (s : State) :
    (modSeg i f s).port = s.port := rfl
@[simp] theorem modSeg_inbound (i : Nat) (f : SegEntry → SegEntry) (s : State) :
    (modSeg i f s).inbound = s.inbound := rfl
@[simp] theorem modSeg_engine (i : Nat) (f : SegEntry → SegEntry) (s : State) :
    (modSeg i f s).engine = s.engine := rfl
@[simp] theorem modSeg_replies (i : Nat) (f : SegEntry → SegEntry) (s : State) :
    (modSeg i f s).replies = s.replies := rfl
@[simp] theorem modSeg_replySeq (i : Nat) (f : SegEntry → SegEntry) (s : State) :
    (modSeg i f s).replySeq = s.replySeq := rfl
@[simp] theorem modSeg_notices (i : Nat) (f : SegEntry → SegEntry) (s : State) :
    (modSeg i f s).notices = s.notices := rfl
@[simp] theorem modSeg_dir (i : Nat) (f : SegEntry → SegEntry) (s : State) :
    (modSeg i f s).dir = s.dir := rfl
@[simp] theorem modSeg_group (i : Nat) (f : SegEntry → SegEntry) (s : State) :
    (modSeg i f s).group = s.group := rfl
@[simp] theorem modSeg_prot (i : Nat) (f : SegEntry → SegEntry) (s : State) :
    (modSeg i f s).prot = s.prot := rfl
@[simp] theorem modSeg_log (i : Nat) (f : SegEntry → SegEntry) (s : State) :
    (modSeg i f s).log = { s.log with segs := s.log.segs.modify i f } := rfl
@[simp] theorem modSeg_ctrl (i : Nat) (f : SegEntry → SegEntry) (s : State) :
    (modSeg i f s).ctrl = s.ctrl := rfl
@[simp] theorem modSeg_reclaim (i : Nat) (f : SegEntry → SegEntry) (s : State) :
    (modSeg i f s).reclaim = s.reclaim := rfl
@[simp] theorem modSeg_mount (i : Nat) (f : SegEntry → SegEntry) (s : State) :
    (modSeg i f s).mount = s.mount := rfl
@[simp] theorem modSeg_array (i : Nat) (f : SegEntry → SegEntry) (s : State) :
    (modSeg i f s).array = s.array := rfl
@[simp] theorem modSeg_free (i : Nat) (f : SegEntry → SegEntry) (s : State) :
    (modSeg i f s).free = s.free := rfl
@[simp] theorem modSeg_pending (i : Nat) (f : SegEntry → SegEntry) (s : State) :
    (modSeg i f s).pending = s.pending := rfl

/-! ## `modArray`: a segment of the array changes -/

@[simp] theorem modArray_powered (i : Nat) (f : ArraySeg → ArraySeg) (s : State) :
    (modArray i f s).powered = s.powered := rfl
@[simp] theorem modArray_rst (i : Nat) (f : ArraySeg → ArraySeg) (s : State) :
    (modArray i f s).rst = s.rst := rfl
@[simp] theorem modArray_sel (i : Nat) (f : ArraySeg → ArraySeg) (s : State) :
    (modArray i f s).sel = s.sel := rfl
@[simp] theorem modArray_resetKind (i : Nat) (f : ArraySeg → ArraySeg) (s : State) :
    (modArray i f s).resetKind = s.resetKind := rfl
@[simp] theorem modArray_port (i : Nat) (f : ArraySeg → ArraySeg) (s : State) :
    (modArray i f s).port = s.port := rfl
@[simp] theorem modArray_inbound (i : Nat) (f : ArraySeg → ArraySeg) (s : State) :
    (modArray i f s).inbound = s.inbound := rfl
@[simp] theorem modArray_engine (i : Nat) (f : ArraySeg → ArraySeg) (s : State) :
    (modArray i f s).engine = s.engine := rfl
@[simp] theorem modArray_replies (i : Nat) (f : ArraySeg → ArraySeg) (s : State) :
    (modArray i f s).replies = s.replies := rfl
@[simp] theorem modArray_replySeq (i : Nat) (f : ArraySeg → ArraySeg) (s : State) :
    (modArray i f s).replySeq = s.replySeq := rfl
@[simp] theorem modArray_notices (i : Nat) (f : ArraySeg → ArraySeg) (s : State) :
    (modArray i f s).notices = s.notices := rfl
@[simp] theorem modArray_dir (i : Nat) (f : ArraySeg → ArraySeg) (s : State) :
    (modArray i f s).dir = s.dir := rfl
@[simp] theorem modArray_group (i : Nat) (f : ArraySeg → ArraySeg) (s : State) :
    (modArray i f s).group = s.group := rfl
@[simp] theorem modArray_prot (i : Nat) (f : ArraySeg → ArraySeg) (s : State) :
    (modArray i f s).prot = s.prot := rfl
@[simp] theorem modArray_log (i : Nat) (f : ArraySeg → ArraySeg) (s : State) :
    (modArray i f s).log = s.log := rfl
@[simp] theorem modArray_ctrl (i : Nat) (f : ArraySeg → ArraySeg) (s : State) :
    (modArray i f s).ctrl = s.ctrl := rfl
@[simp] theorem modArray_reclaim (i : Nat) (f : ArraySeg → ArraySeg) (s : State) :
    (modArray i f s).reclaim = s.reclaim := rfl
@[simp] theorem modArray_mount (i : Nat) (f : ArraySeg → ArraySeg) (s : State) :
    (modArray i f s).mount = s.mount := rfl
@[simp] theorem modArray_array (i : Nat) (f : ArraySeg → ArraySeg) (s : State) :
    (modArray i f s).array = s.array.modify i f := rfl
@[simp] theorem modArray_free (i : Nat) (f : ArraySeg → ArraySeg) (s : State) :
    (modArray i f s).free = s.free := rfl
@[simp] theorem modArray_pending (i : Nat) (f : ArraySeg → ArraySeg) (s : State) :
    (modArray i f s).pending = s.pending := rfl

/-! ## `enqueue`: a frame enters the reply queue -/

@[simp] theorem enqueue_powered (o : Out) (s : State) : (enqueue o s).powered = s.powered := rfl
@[simp] theorem enqueue_rst (o : Out) (s : State) : (enqueue o s).rst = s.rst := rfl
@[simp] theorem enqueue_sel (o : Out) (s : State) : (enqueue o s).sel = s.sel := rfl
@[simp] theorem enqueue_resetKind (o : Out) (s : State) : (enqueue o s).resetKind = s.resetKind := rfl
@[simp] theorem enqueue_port (o : Out) (s : State) : (enqueue o s).port = s.port := rfl
@[simp] theorem enqueue_inbound (o : Out) (s : State) : (enqueue o s).inbound = s.inbound := rfl
@[simp] theorem enqueue_engine (o : Out) (s : State) : (enqueue o s).engine = s.engine := rfl
@[simp] theorem enqueue_replies (o : Out) (s : State) :
    (enqueue o s).replies = s.replies ++ [{ seq := s.replySeq, out := o }] := rfl
@[simp] theorem enqueue_replySeq (o : Out) (s : State) : (enqueue o s).replySeq = s.replySeq + 1 := rfl
@[simp] theorem enqueue_notices (o : Out) (s : State) : (enqueue o s).notices = s.notices := rfl
@[simp] theorem enqueue_dir (o : Out) (s : State) : (enqueue o s).dir = s.dir := rfl
@[simp] theorem enqueue_group (o : Out) (s : State) : (enqueue o s).group = s.group := rfl
@[simp] theorem enqueue_prot (o : Out) (s : State) : (enqueue o s).prot = s.prot := rfl
@[simp] theorem enqueue_log (o : Out) (s : State) : (enqueue o s).log = s.log := rfl
@[simp] theorem enqueue_ctrl (o : Out) (s : State) : (enqueue o s).ctrl = s.ctrl := rfl
@[simp] theorem enqueue_reclaim (o : Out) (s : State) : (enqueue o s).reclaim = s.reclaim := rfl
@[simp] theorem enqueue_mount (o : Out) (s : State) : (enqueue o s).mount = s.mount := rfl
@[simp] theorem enqueue_array (o : Out) (s : State) : (enqueue o s).array = s.array := rfl
@[simp] theorem enqueue_free (o : Out) (s : State) : (enqueue o s).free = s.free := rfl
@[simp] theorem enqueue_pending (o : Out) (s : State) : (enqueue o s).pending = s.pending := rfl

/-! ## `replied`: a frame is in the reply queue -/

@[simp] theorem replied_powered (o : Out) (s : State) : (replied o s).powered = s.powered := rfl
@[simp] theorem replied_rst (o : Out) (s : State) : (replied o s).rst = s.rst := rfl
@[simp] theorem replied_sel (o : Out) (s : State) : (replied o s).sel = s.sel := rfl
@[simp] theorem replied_resetKind (o : Out) (s : State) : (replied o s).resetKind = s.resetKind := rfl
@[simp] theorem replied_port (o : Out) (s : State) : (replied o s).port = s.port := rfl
@[simp] theorem replied_inbound (o : Out) (s : State) : (replied o s).inbound = s.inbound := rfl
@[simp] theorem replied_engine (o : Out) (s : State) : (replied o s).engine = s.engine := rfl
@[simp] theorem replied_replies (o : Out) (s : State) :
    (replied o s).replies = s.replies ++ [{ seq := s.replySeq, out := o }] := rfl
@[simp] theorem replied_replySeq (o : Out) (s : State) : (replied o s).replySeq = s.replySeq + 1 := rfl
@[simp] theorem replied_notices (o : Out) (s : State) : (replied o s).notices = s.notices := rfl
@[simp] theorem replied_dir (o : Out) (s : State) : (replied o s).dir = s.dir := rfl
@[simp] theorem replied_group (o : Out) (s : State) : (replied o s).group = s.group := rfl
@[simp] theorem replied_prot (o : Out) (s : State) : (replied o s).prot = s.prot := rfl
@[simp] theorem replied_log (o : Out) (s : State) : (replied o s).log = s.log := rfl
@[simp] theorem replied_ctrl (o : Out) (s : State) : (replied o s).ctrl = s.ctrl := rfl
@[simp] theorem replied_reclaim (o : Out) (s : State) : (replied o s).reclaim = s.reclaim := rfl
@[simp] theorem replied_mount (o : Out) (s : State) : (replied o s).mount = s.mount := rfl
@[simp] theorem replied_array (o : Out) (s : State) : (replied o s).array = s.array := rfl
@[simp] theorem replied_free (o : Out) (s : State) : (replied o s).free = s.free := rfl
@[simp] theorem replied_pending (o : Out) (s : State) : (replied o s).pending = s.pending := rfl

/-! ## `startJob`: the engine has a record to place -/

@[simp] theorem startJob_powered (j : Job) (s : State) : (startJob j s).powered = s.powered := rfl
@[simp] theorem startJob_rst (j : Job) (s : State) : (startJob j s).rst = s.rst := rfl
@[simp] theorem startJob_sel (j : Job) (s : State) : (startJob j s).sel = s.sel := rfl
@[simp] theorem startJob_resetKind (j : Job) (s : State) : (startJob j s).resetKind = s.resetKind := rfl
@[simp] theorem startJob_port (j : Job) (s : State) : (startJob j s).port = s.port := rfl
@[simp] theorem startJob_inbound (j : Job) (s : State) : (startJob j s).inbound = s.inbound := rfl
@[simp] theorem startJob_engine (j : Job) (s : State) :
    (startJob j s).engine = { s.engine with state := .busy, job := some j, assembly := none } := rfl
@[simp] theorem startJob_replies (j : Job) (s : State) : (startJob j s).replies = s.replies := rfl
@[simp] theorem startJob_replySeq (j : Job) (s : State) : (startJob j s).replySeq = s.replySeq := rfl
@[simp] theorem startJob_notices (j : Job) (s : State) : (startJob j s).notices = s.notices := rfl
@[simp] theorem startJob_dir (j : Job) (s : State) : (startJob j s).dir = s.dir := rfl
@[simp] theorem startJob_group (j : Job) (s : State) : (startJob j s).group = s.group := rfl
@[simp] theorem startJob_prot (j : Job) (s : State) : (startJob j s).prot = s.prot := rfl
@[simp] theorem startJob_log (j : Job) (s : State) : (startJob j s).log = s.log := rfl
@[simp] theorem startJob_ctrl (j : Job) (s : State) : (startJob j s).ctrl = s.ctrl := rfl
@[simp] theorem startJob_reclaim (j : Job) (s : State) : (startJob j s).reclaim = s.reclaim := rfl
@[simp] theorem startJob_mount (j : Job) (s : State) : (startJob j s).mount = s.mount := rfl
@[simp] theorem startJob_array (j : Job) (s : State) : (startJob j s).array = s.array := rfl
@[simp] theorem startJob_free (j : Job) (s : State) : (startJob j s).free = s.free := rfl
@[simp] theorem startJob_pending (j : Job) (s : State) : (startJob j s).pending = s.pending := rfl

/-! ## `waitForSpace`: the engine waits for space -/

@[simp] theorem waitForSpace_powered (s : State) : (waitForSpace s).powered = s.powered := rfl
@[simp] theorem waitForSpace_rst (s : State) : (waitForSpace s).rst = s.rst := rfl
@[simp] theorem waitForSpace_sel (s : State) : (waitForSpace s).sel = s.sel := rfl
@[simp] theorem waitForSpace_resetKind (s : State) : (waitForSpace s).resetKind = s.resetKind := rfl
@[simp] theorem waitForSpace_port (s : State) : (waitForSpace s).port = s.port := rfl
@[simp] theorem waitForSpace_inbound (s : State) : (waitForSpace s).inbound = s.inbound := rfl
@[simp] theorem waitForSpace_engine (s : State) :
    (waitForSpace s).engine = { s.engine with state := .waitingSpace } := rfl
@[simp] theorem waitForSpace_replies (s : State) : (waitForSpace s).replies = s.replies := rfl
@[simp] theorem waitForSpace_replySeq (s : State) : (waitForSpace s).replySeq = s.replySeq := rfl
@[simp] theorem waitForSpace_notices (s : State) : (waitForSpace s).notices = s.notices := rfl
@[simp] theorem waitForSpace_dir (s : State) : (waitForSpace s).dir = s.dir := rfl
@[simp] theorem waitForSpace_group (s : State) : (waitForSpace s).group = s.group := rfl
@[simp] theorem waitForSpace_prot (s : State) : (waitForSpace s).prot = s.prot := rfl
@[simp] theorem waitForSpace_log (s : State) : (waitForSpace s).log = s.log := rfl
@[simp] theorem waitForSpace_ctrl (s : State) : (waitForSpace s).ctrl = s.ctrl := rfl
@[simp] theorem waitForSpace_reclaim (s : State) :
    (waitForSpace s).reclaim = { s.reclaim with foreground := true } := rfl
@[simp] theorem waitForSpace_mount (s : State) : (waitForSpace s).mount = s.mount := rfl
@[simp] theorem waitForSpace_array (s : State) : (waitForSpace s).array = s.array := rfl
@[simp] theorem waitForSpace_free (s : State) : (waitForSpace s).free = s.free := rfl
@[simp] theorem waitForSpace_pending (s : State) : (waitForSpace s).pending = s.pending := rfl

/-! ## `occupy`: a record's bytes are taken at the head -/

@[simp] theorem occupy_powered (g : Grant) (head : Nat) (s : State) :
    (occupy g head s).powered = s.powered := rfl
@[simp] theorem occupy_rst (g : Grant) (head : Nat) (s : State) : (occupy g head s).rst = s.rst := rfl
@[simp] theorem occupy_sel (g : Grant) (head : Nat) (s : State) : (occupy g head s).sel = s.sel := rfl
@[simp] theorem occupy_resetKind (g : Grant) (head : Nat) (s : State) :
    (occupy g head s).resetKind = s.resetKind := rfl
@[simp] theorem occupy_port (g : Grant) (head : Nat) (s : State) : (occupy g head s).port = s.port := rfl
@[simp] theorem occupy_inbound (g : Grant) (head : Nat) (s : State) :
    (occupy g head s).inbound = s.inbound := rfl
@[simp] theorem occupy_engine (g : Grant) (head : Nat) (s : State) :
    (occupy g head s).engine = s.engine := rfl
@[simp] theorem occupy_replies (g : Grant) (head : Nat) (s : State) :
    (occupy g head s).replies = s.replies := rfl
@[simp] theorem occupy_replySeq (g : Grant) (head : Nat) (s : State) :
    (occupy g head s).replySeq = s.replySeq := rfl
@[simp] theorem occupy_notices (g : Grant) (head : Nat) (s : State) :
    (occupy g head s).notices = s.notices := rfl
@[simp] theorem occupy_dir (g : Grant) (head : Nat) (s : State) : (occupy g head s).dir = s.dir := rfl
@[simp] theorem occupy_group (g : Grant) (head : Nat) (s : State) :
    (occupy g head s).group = s.group := rfl
@[simp] theorem occupy_prot (g : Grant) (head : Nat) (s : State) : (occupy g head s).prot = s.prot := rfl
@[simp] theorem occupy_log (g : Grant) (head : Nat) (s : State) :
    (occupy g head s).log =
    { s.log with
      segs := s.log.segs.modify head fun e => { e with used := e.used + (placedRecord g s).size }
      grant := some
        { g with record := placedRecord g s, stage := .programming (writeLoc head s) } } := rfl
@[simp] theorem occupy_ctrl (g : Grant) (head : Nat) (s : State) : (occupy g head s).ctrl = s.ctrl := rfl
@[simp] theorem occupy_reclaim (g : Grant) (head : Nat) (s : State) :
    (occupy g head s).reclaim = s.reclaim := rfl
@[simp] theorem occupy_mount (g : Grant) (head : Nat) (s : State) :
    (occupy g head s).mount = s.mount := rfl
@[simp] theorem occupy_array (g : Grant) (head : Nat) (s : State) :
    (occupy g head s).array = s.array := rfl
@[simp] theorem occupy_free (g : Grant) (head : Nat) (s : State) : (occupy g head s).free = s.free := rfl
@[simp] theorem occupy_pending (g : Grant) (head : Nat) (s : State) :
    (occupy g head s).pending = s.pending := rfl

/-! ## `enginePlaced`: the engine's record is placed -/

@[simp] theorem enginePlaced_powered (takesSn : Bool) (s : State) :
    (enginePlaced takesSn s).powered = s.powered := rfl
@[simp] theorem enginePlaced_rst (takesSn : Bool) (s : State) :
    (enginePlaced takesSn s).rst = s.rst := rfl
@[simp] theorem enginePlaced_sel (takesSn : Bool) (s : State) :
    (enginePlaced takesSn s).sel = s.sel := rfl
@[simp] theorem enginePlaced_resetKind (takesSn : Bool) (s : State) :
    (enginePlaced takesSn s).resetKind = s.resetKind := rfl
@[simp] theorem enginePlaced_port (takesSn : Bool) (s : State) :
    (enginePlaced takesSn s).port = s.port := rfl
@[simp] theorem enginePlaced_inbound (takesSn : Bool) (s : State) :
    (enginePlaced takesSn s).inbound = s.inbound := rfl
@[simp] theorem enginePlaced_engine (takesSn : Bool) (s : State) :
    (enginePlaced takesSn s).engine = { s.engine with state := .busy } := rfl
@[simp] theorem enginePlaced_replies (takesSn : Bool) (s : State) :
    (enginePlaced takesSn s).replies = s.replies := rfl
@[simp] theorem enginePlaced_replySeq (takesSn : Bool) (s : State) :
    (enginePlaced takesSn s).replySeq = s.replySeq := rfl
@[simp] theorem enginePlaced_notices (takesSn : Bool) (s : State) :
    (enginePlaced takesSn s).notices = s.notices := rfl
@[simp] theorem enginePlaced_dir (takesSn : Bool) (s : State) :
    (enginePlaced takesSn s).dir = s.dir := rfl
@[simp] theorem enginePlaced_group (takesSn : Bool) (s : State) :
    (enginePlaced takesSn s).group = s.group := rfl
@[simp] theorem enginePlaced_prot (takesSn : Bool) (s : State) :
    (enginePlaced takesSn s).prot = s.prot := rfl
@[simp] theorem enginePlaced_log (takesSn : Bool) (s : State) :
    (enginePlaced takesSn s).log =
    { s.log with sn := if takesSn then s.log.sn + 1 else s.log.sn } := rfl
@[simp] theorem enginePlaced_ctrl (takesSn : Bool) (s : State) :
    (enginePlaced takesSn s).ctrl = s.ctrl := rfl
@[simp] theorem enginePlaced_reclaim (takesSn : Bool) (s : State) :
    (enginePlaced takesSn s).reclaim = { s.reclaim with foreground := false } := rfl
@[simp] theorem enginePlaced_mount (takesSn : Bool) (s : State) :
    (enginePlaced takesSn s).mount = s.mount := rfl
@[simp] theorem enginePlaced_array (takesSn : Bool) (s : State) :
    (enginePlaced takesSn s).array = s.array := rfl
@[simp] theorem enginePlaced_free (takesSn : Bool) (s : State) :
    (enginePlaced takesSn s).free = s.free := rfl
@[simp] theorem enginePlaced_pending (takesSn : Bool) (s : State) :
    (enginePlaced takesSn s).pending = s.pending := rfl

/-! ## `copyPlaced`: the copy is placed -/

@[simp] theorem copyPlaced_powered (record : Record) (loc : Loc) (s : State) :
    (copyPlaced record loc s).powered = s.powered := rfl
@[simp] theorem copyPlaced_rst (record : Record) (loc : Loc) (s : State) :
    (copyPlaced record loc s).rst = s.rst := rfl
@[simp] theorem copyPlaced_sel (record : Record) (loc : Loc) (s : State) :
    (copyPlaced record loc s).sel = s.sel := rfl
@[simp] theorem copyPlaced_resetKind (record : Record) (loc : Loc) (s : State) :
    (copyPlaced record loc s).resetKind = s.resetKind := rfl
@[simp] theorem copyPlaced_port (record : Record) (loc : Loc) (s : State) :
    (copyPlaced record loc s).port = s.port := rfl
@[simp] theorem copyPlaced_inbound (record : Record) (loc : Loc) (s : State) :
    (copyPlaced record loc s).inbound = s.inbound := rfl
@[simp] theorem copyPlaced_engine (record : Record) (loc : Loc) (s : State) :
    (copyPlaced record loc s).engine = s.engine := rfl
@[simp] theorem copyPlaced_replies (record : Record) (loc : Loc) (s : State) :
    (copyPlaced record loc s).replies = s.replies := rfl
@[simp] theorem copyPlaced_replySeq (record : Record) (loc : Loc) (s : State) :
    (copyPlaced record loc s).replySeq = s.replySeq := rfl
@[simp] theorem copyPlaced_notices (record : Record) (loc : Loc) (s : State) :
    (copyPlaced record loc s).notices = s.notices := rfl
@[simp] theorem copyPlaced_dir (record : Record) (loc : Loc) (s : State) :
    (copyPlaced record loc s).dir = s.dir := rfl
@[simp] theorem copyPlaced_group (record : Record) (loc : Loc) (s : State) :
    (copyPlaced record loc s).group = s.group := rfl
@[simp] theorem copyPlaced_prot (record : Record) (loc : Loc) (s : State) :
    (copyPlaced record loc s).prot = s.prot := rfl
@[simp] theorem copyPlaced_log (record : Record) (loc : Loc) (s : State) :
    (copyPlaced record loc s).log = s.log := rfl
@[simp] theorem copyPlaced_ctrl (record : Record) (loc : Loc) (s : State) :
    (copyPlaced record loc s).ctrl = s.ctrl := rfl
@[simp] theorem copyPlaced_reclaim (record : Record) (loc : Loc) (s : State) :
    (copyPlaced record loc s).reclaim =
    { s.reclaim with
      copy := s.reclaim.copy.map fun c => { c with placed := some loc, tagged := record.tagged }
      bytesPlaced := s.reclaim.bytesPlaced + record.size } := rfl
@[simp] theorem copyPlaced_mount (record : Record) (loc : Loc) (s : State) :
    (copyPlaced record loc s).mount = s.mount := rfl
@[simp] theorem copyPlaced_array (record : Record) (loc : Loc) (s : State) :
    (copyPlaced record loc s).array = s.array := rfl
@[simp] theorem copyPlaced_free (record : Record) (loc : Loc) (s : State) :
    (copyPlaced record loc s).free = s.free := rfl
@[simp] theorem copyPlaced_pending (record : Record) (loc : Loc) (s : State) :
    (copyPlaced record loc s).pending = s.pending := rfl

/-! ## `startPass`: a pass is in hand -/

@[simp] theorem startPass_powered (v : Nat) (s : State) : (startPass v s).powered = s.powered := rfl
@[simp] theorem startPass_rst (v : Nat) (s : State) : (startPass v s).rst = s.rst := rfl
@[simp] theorem startPass_sel (v : Nat) (s : State) : (startPass v s).sel = s.sel := rfl
@[simp] theorem startPass_resetKind (v : Nat) (s : State) :
    (startPass v s).resetKind = s.resetKind := rfl
@[simp] theorem startPass_port (v : Nat) (s : State) : (startPass v s).port = s.port := rfl
@[simp] theorem startPass_inbound (v : Nat) (s : State) : (startPass v s).inbound = s.inbound := rfl
@[simp] theorem startPass_engine (v : Nat) (s : State) : (startPass v s).engine = s.engine := rfl
@[simp] theorem startPass_replies (v : Nat) (s : State) : (startPass v s).replies = s.replies := rfl
@[simp] theorem startPass_replySeq (v : Nat) (s : State) : (startPass v s).replySeq = s.replySeq := rfl
@[simp] theorem startPass_notices (v : Nat) (s : State) : (startPass v s).notices = s.notices := rfl
@[simp] theorem startPass_dir (v : Nat) (s : State) : (startPass v s).dir = s.dir := rfl
@[simp] theorem startPass_group (v : Nat) (s : State) : (startPass v s).group = s.group := rfl
@[simp] theorem startPass_prot (v : Nat) (s : State) : (startPass v s).prot = s.prot := rfl
@[simp] theorem startPass_log (v : Nat) (s : State) :
    (startPass v s).log =
    { s.log with segs := s.log.segs.modify v fun e => { e with state := .reclaiming } } := rfl
@[simp] theorem startPass_ctrl (v : Nat) (s : State) : (startPass v s).ctrl = s.ctrl := rfl
@[simp] theorem startPass_reclaim (v : Nat) (s : State) :
    (startPass v s).reclaim = s.reclaim.onVictim v := rfl
@[simp] theorem startPass_mount (v : Nat) (s : State) : (startPass v s).mount = s.mount := rfl
@[simp] theorem startPass_array (v : Nat) (s : State) : (startPass v s).array = s.array := rfl
@[simp] theorem startPass_free (v : Nat) (s : State) : (startPass v s).free = s.free := rfl
@[simp] theorem startPass_pending (v : Nat) (s : State) : (startPass v s).pending = s.pending := rfl

/-! ## `mountAsk`: mount goes on -/

@[simp] theorem mountAsk_powered (m : Mount) (op : Option ArrayOp) (s : State) :
    (mountAsk m op s).powered = s.powered := rfl
@[simp] theorem mountAsk_rst (m : Mount) (op : Option ArrayOp) (s : State) :
    (mountAsk m op s).rst = s.rst := rfl
@[simp] theorem mountAsk_sel (m : Mount) (op : Option ArrayOp) (s : State) :
    (mountAsk m op s).sel = s.sel := rfl
@[simp] theorem mountAsk_resetKind (m : Mount) (op : Option ArrayOp) (s : State) :
    (mountAsk m op s).resetKind = s.resetKind := rfl
@[simp] theorem mountAsk_port (m : Mount) (op : Option ArrayOp) (s : State) :
    (mountAsk m op s).port = s.port := rfl
@[simp] theorem mountAsk_inbound (m : Mount) (op : Option ArrayOp) (s : State) :
    (mountAsk m op s).inbound = s.inbound := rfl
@[simp] theorem mountAsk_engine (m : Mount) (op : Option ArrayOp) (s : State) :
    (mountAsk m op s).engine = s.engine := rfl
@[simp] theorem mountAsk_replies (m : Mount) (op : Option ArrayOp) (s : State) :
    (mountAsk m op s).replies = s.replies := rfl
@[simp] theorem mountAsk_replySeq (m : Mount) (op : Option ArrayOp) (s : State) :
    (mountAsk m op s).replySeq = s.replySeq := rfl
@[simp] theorem mountAsk_notices (m : Mount) (op : Option ArrayOp) (s : State) :
    (mountAsk m op s).notices = s.notices := rfl
@[simp] theorem mountAsk_dir (m : Mount) (op : Option ArrayOp) (s : State) :
    (mountAsk m op s).dir = s.dir := rfl
@[simp] theorem mountAsk_group (m : Mount) (op : Option ArrayOp) (s : State) :
    (mountAsk m op s).group = s.group := rfl
@[simp] theorem mountAsk_prot (m : Mount) (op : Option ArrayOp) (s : State) :
    (mountAsk m op s).prot = s.prot := rfl
@[simp] theorem mountAsk_log (m : Mount) (op : Option ArrayOp) (s : State) :
    (mountAsk m op s).log = s.log := rfl
@[simp] theorem mountAsk_ctrl (m : Mount) (op : Option ArrayOp) (s : State) :
    (mountAsk m op s).ctrl = { s.ctrl with cur := op } := rfl
@[simp] theorem mountAsk_reclaim (m : Mount) (op : Option ArrayOp) (s : State) :
    (mountAsk m op s).reclaim = s.reclaim := rfl
@[simp] theorem mountAsk_mount (m : Mount) (op : Option ArrayOp) (s : State) :
    (mountAsk m op s).mount = some m := rfl
@[simp] theorem mountAsk_array (m : Mount) (op : Option ArrayOp) (s : State) :
    (mountAsk m op s).array = s.array := rfl
@[simp] theorem mountAsk_free (m : Mount) (op : Option ArrayOp) (s : State) :
    (mountAsk m op s).free = s.free := rfl
@[simp] theorem mountAsk_pending (m : Mount) (op : Option ArrayOp) (s : State) :
    (mountAsk m op s).pending = s.pending := rfl

/-! ## `linked`: a transaction has completed -/

@[simp] theorem linked_powered (op : Byte) (received : Nat) (collected answer : Bytes) (s : State) :
    (linked op received collected answer s).powered = s.powered := rfl
@[simp] theorem linked_rst (op : Byte) (received : Nat) (collected answer : Bytes) (s : State) :
    (linked op received collected answer s).rst = s.rst := rfl
@[simp] theorem linked_sel (op : Byte) (received : Nat) (collected answer : Bytes) (s : State) :
    (linked op received collected answer s).sel = true := rfl
@[simp] theorem linked_resetKind (op : Byte) (received : Nat) (collected answer : Bytes) (s : State) :
    (linked op received collected answer s).resetKind = s.resetKind := rfl
@[simp] theorem linked_port (op : Byte) (received : Nat) (collected answer : Bytes) (s : State) :
    (linked op received collected answer s).port =
    { phase := .answering, operation := some op, received := received, collected := collected
      answer := answer } := rfl
@[simp] theorem linked_inbound (op : Byte) (received : Nat) (collected answer : Bytes) (s : State) :
    (linked op received collected answer s).inbound = s.inbound := rfl
@[simp] theorem linked_engine (op : Byte) (received : Nat) (collected answer : Bytes) (s : State) :
    (linked op received collected answer s).engine = s.engine := rfl
@[simp] theorem linked_replies (op : Byte) (received : Nat) (collected answer : Bytes) (s : State) :
    (linked op received collected answer s).replies = s.replies := rfl
@[simp] theorem linked_replySeq (op : Byte) (received : Nat) (collected answer : Bytes) (s : State) :
    (linked op received collected answer s).replySeq = s.replySeq := rfl
@[simp] theorem linked_notices (op : Byte) (received : Nat) (collected answer : Bytes) (s : State) :
    (linked op received collected answer s).notices = s.notices := rfl
@[simp] theorem linked_dir (op : Byte) (received : Nat) (collected answer : Bytes) (s : State) :
    (linked op received collected answer s).dir = s.dir := rfl
@[simp] theorem linked_group (op : Byte) (received : Nat) (collected answer : Bytes) (s : State) :
    (linked op received collected answer s).group = s.group := rfl
@[simp] theorem linked_prot (op : Byte) (received : Nat) (collected answer : Bytes) (s : State) :
    (linked op received collected answer s).prot = s.prot := rfl
@[simp] theorem linked_log (op : Byte) (received : Nat) (collected answer : Bytes) (s : State) :
    (linked op received collected answer s).log = s.log := rfl
@[simp] theorem linked_ctrl (op : Byte) (received : Nat) (collected answer : Bytes) (s : State) :
    (linked op received collected answer s).ctrl = s.ctrl := rfl
@[simp] theorem linked_reclaim (op : Byte) (received : Nat) (collected answer : Bytes) (s : State) :
    (linked op received collected answer s).reclaim = s.reclaim := rfl
@[simp] theorem linked_mount (op : Byte) (received : Nat) (collected answer : Bytes) (s : State) :
    (linked op received collected answer s).mount = s.mount := rfl
@[simp] theorem linked_array (op : Byte) (received : Nat) (collected answer : Bytes) (s : State) :
    (linked op received collected answer s).array = s.array := rfl
@[simp] theorem linked_free (op : Byte) (received : Nat) (collected answer : Bytes) (s : State) :
    (linked op received collected answer s).free = s.free := rfl
@[simp] theorem linked_pending (op : Byte) (received : Nat) (collected answer : Bytes) (s : State) :
    (linked op received collected answer s).pending = s.pending := rfl

end Sys2Proof.Machine
end

