-- ==== Sys2Proof/Laws/Tables.lean ====
section
/-!
SUPPORT. What the shared operations over the directory, the settings table and the array can do, said
once each: the result of a lookup after a change.
-/

namespace Sys2Proof.Machine

open Sys2Proof

/-! ## The directory and the settings table -/

/-- A lookup after `dirPut`: the entry put, under its own name; what was there, under any other. -/
theorem lookup_dirPut (dir : List Entry) (e : Entry) (ns : Nat) (key : Bytes) :
    lookup (dirPut dir e) ns key =
      if ns = e.ns ∧ key = e.key then some e else lookup dir ns key := by
  have own : ∀ rest, lookup (e :: rest) ns key =
      if ns = e.ns ∧ key = e.key then some e else lookup rest ns key := by
    intro rest
    by_cases h : e.ns = ns ∧ e.key = key
    · simp [lookup, h]
    · rw [if_neg fun g => h ⟨g.1.symm, g.2.symm⟩]
      simp [lookup, h]
  induction dir with
  | nil => exact own []
  | cons x rest ih =>
    simp only [dirPut]
    split
    · rename_i h
      rw [own]
      by_cases g : ns = e.ns ∧ key = e.key
      · simp [g]
      · rw [if_neg g, if_neg g]
        simp only [lookup, List.find?_cons]
        rw [decide_eq_false fun k => g ⟨k.1.symm.trans h.1, k.2.symm.trans h.2⟩]
    · split
      · exact own (x :: rest)
      · rename_i h _
        by_cases k : x.ns = ns ∧ x.key = key
        · rw [if_neg fun g => h ⟨k.1.trans g.1, k.2.trans g.2⟩]
          simp [lookup, k]
        · simpa [lookup, k] using ih

/-- An entry of a new name adds itself to the directory. -/
theorem dirPut_fresh (dir : List Entry) (e : Entry)
    (fresh : ∀ x ∈ dir, ¬ (x.ns = e.ns ∧ x.key = e.key)) :
    (dirPut dir e).length = dir.length + 1 ∧ ∀ y, y ∈ dirPut dir e ↔ y = e ∨ y ∈ dir := by
  induction dir with
  | nil => exact ⟨rfl, by simp [dirPut]⟩
  | cons x rest ih =>
    unfold dirPut
    rw [if_neg (fresh x List.mem_cons_self)]
    split
    · exact ⟨rfl, by simp⟩
    · obtain ⟨length, mem⟩ := ih fun y h => fresh y (List.mem_cons_of_mem _ h)
      refine ⟨by simp [length], fun y => ?_⟩
      simp only [List.mem_cons, mem]
      tauto

/-- A lookup after `dirRemove`: nothing under that name, what was there under any other. -/
theorem lookup_dirRemove (dir : List Entry) (ns' : Nat) (key' : Bytes) (ns : Nat) (key : Bytes) :
    lookup (dirRemove dir ns' key') ns key =
      if ns = ns' ∧ key = key' then none else lookup dir ns key := by
  rw [lookup, dirRemove, List.find?_filter]
  split
  · rename_i h
    simp only [h.1, h.2, List.find?_eq_none]
    intro x _
    by_cases k : x.ns = ns' ∧ x.key = key' <;> simp [k]
  · rename_i h
    rw [lookup]
    congr 1
    funext x
    by_cases k : x.ns = ns ∧ x.key = key
    · simp [k.1, k.2, h]
    · simp [k]

/-- A setting after `settingsPut`: the one put, under its own id; what was there, under any other. -/
theorem settingOf_settingsPut (settings : List Setting) (t : Setting) (id : Byte) :
    settingOf (settingsPut settings t) id = if id = t.id then some t else settingOf settings id := by
  have own : ∀ rest, settingOf (t :: rest) id =
      if id = t.id then some t else settingOf rest id := by
    intro rest
    by_cases h : t.id = id
    · simp [settingOf, h]
    · rw [if_neg (Ne.symm h)]
      simp [settingOf, h]
  induction settings with
  | nil => exact own []
  | cons x rest ih =>
    simp only [settingsPut]
    split
    · rename_i h
      rw [own]
      by_cases g : id = t.id
      · simp [g]
      · rw [if_neg g, if_neg g]
        simp only [settingOf, List.find?_cons]
        rw [decide_eq_false fun k => g (k.symm.trans h)]
    · split
      · exact own (x :: rest)
      · rename_i h _
        by_cases k : x.id = id
        · rw [if_neg fun g => h (k.trans g)]
          simp [settingOf, k]
        · simpa [settingOf, k] using ih

/-- A setting of a table built from one setting for each of these ids. -/
theorem settingOf_filterMap (ids : List Byte) (build : Byte → Option Setting)
    (own : ∀ i t, build i = some t → t.id = i) (id : Byte) :
    settingOf (ids.filterMap build) id = if id ∈ ids then build id else none := by
  induction ids with
  | nil => rfl
  | cons i ids ih =>
    rw [List.filterMap_cons]
    cases h : build i with
    | none =>
      dsimp only
      rw [ih]
      by_cases same : id = i
      · subst same
        simp [h]
      · simp [same]
    | some t =>
      dsimp only
      unfold settingOf at ih ⊢
      rw [List.find?_cons]
      have ht := own i t h
      by_cases same : id = i
      · subst same
        simp [h, ht]
      · rw [decide_eq_false (by rw [ht]; exact Ne.symm same)]
        dsimp only
        rw [ih]
        simp [same]

/-! ## The array -/

/-- A segment of the array after a change of one segment. -/
theorem arraySeg_modArray (i j : Nat) (f : ArraySeg → ArraySeg) (s : State) (h : j < s.array.length) :
    arraySeg (modArray i f s) j = if i = j then f (arraySeg s j) else arraySeg s j := by
  simp only [arraySeg, modArray, List.getD_eq_getElem?_getD, List.getElem?_modify]
  split <;> simp [List.getElem?_eq_getElem h]

/-- A mark position read back after it was written. -/
theorem at_put (m : Marks) (p q : MarkPos) (c : Mark) :
    (m.put p c).at q = if q = p then c else m.at q := by
  cases p <;> cases q <;> rfl

/-- A record read back after it was written where no record bytes lay: itself, when whole. -/
theorem recordAt_writeSlot (loc : Loc) (r : Record) (whole : Bool) (s : State)
    (inside : loc.seg < s.array.length) (free : slotAt s loc = none) :
    recordAt (writeSlot loc r whole s) loc = if whole then some r else none := by
  have old : (arraySeg s loc.seg).slots.find? (fun t => decide (t.off = loc.off)) = none := free
  simp only [recordAt, slotAt, writeSlot, arraySeg_modArray _ _ _ _ inside, if_true,
    List.find?_append, old, List.find?_cons, decide_true, Option.none_or]

/-- A record read back after another was written elsewhere. -/
theorem recordAt_writeSlot_other (loc other : Loc) (r : Record) (whole : Bool) (s : State)
    (inside : other.seg < s.array.length) (apart : other ≠ loc) :
    recordAt (writeSlot loc r whole s) other = recordAt s other := by
  simp only [recordAt, slotAt, writeSlot, arraySeg_modArray _ _ _ _ inside]
  by_cases same : loc.seg = other.seg
  · have off : loc.off ≠ other.off := fun h => apart (by cases loc; cases other; simp_all)
    simp [same, off]
  · simp [same]

end Sys2Proof.Machine
end

