-- ==== Sys2Proof/Laws/Takes.lean ====
section
/-!
SUPPORT. From IDLE, the take of a frame runs the handler of its kind on the state without the frame, one
lemma for each command that takes a frame (R150, R151).
-/

namespace Sys2Proof.Machine

open Sys2Proof

theorem handleFrame_ident {f : Frame} (s : State) (kind : f.kind = kIdent) :
    handleFrame f s = handleIdent f s := by
  simp only [handleFrame, kind]
  rfl

/-- From IDLE, Ident. -/
theorem take_ident {s : State} {f : Frame} {rest : List Frame} (h : AtTake s f rest)
    (kind : f.kind = kIdent) :
    exec .ident s = .next (handleIdent f { s with inbound := rest }) := by
  simp only [exec, execIdent, takeKind_idle h _ kind, handleFrame_ident _ kind]

theorem handleFrame_select {f : Frame} (s : State) (kind : f.kind = kSelect) :
    handleFrame f s = handleSelect f s := by
  simp only [handleFrame, kind]
  rfl

/-- From IDLE, Select. -/
theorem take_select {s : State} {f : Frame} {rest : List Frame} (h : AtTake s f rest)
    (kind : f.kind = kSelect) :
    exec .select s = .next (handleSelect f { s with inbound := rest }) := by
  simp only [exec, execSelect, takeKind_idle h _ kind, handleFrame_select _ kind]

theorem handleFrame_space {f : Frame} (s : State) (kind : f.kind = kSpace) :
    handleFrame f s = handleSpace f s := by
  simp only [handleFrame, kind]
  rfl

/-- From IDLE, Space. -/
theorem take_space {s : State} {f : Frame} {rest : List Frame} (h : AtTake s f rest)
    (kind : f.kind = kSpace) :
    exec .space s = .next (handleSpace f { s with inbound := rest }) := by
  simp only [exec, execSpace, takeKind_idle h _ kind, handleFrame_space _ kind]

theorem handleFrame_put {f : Frame} (s : State) (kind : f.kind = kPut) :
    handleFrame f s = handlePut f s := by
  simp only [handleFrame, kind]
  rfl

/-- From IDLE, Put. -/
theorem take_put {s : State} {f : Frame} {rest : List Frame} (h : AtTake s f rest)
    (kind : f.kind = kPut) :
    exec .put s = .next (handlePut f { s with inbound := rest }) := by
  simp only [exec, execPut, takeKind_idle h _ kind, handleFrame_put _ kind]

theorem handleFrame_data {f : Frame} (s : State) (kind : f.kind = kData) :
    handleFrame f s = handleData f s := by
  simp only [handleFrame, kind]
  rfl

/-- From IDLE, Data. -/
theorem take_data {s : State} {f : Frame} {rest : List Frame} (h : AtTake s f rest)
    (kind : f.kind = kData) :
    exec .data s = .next (handleData f { s with inbound := rest }) := by
  simp only [exec, execData, takeKind_idle h _ kind, handleFrame_data _ kind]

theorem handleFrame_get {f : Frame} (s : State) (kind : f.kind = kGet) :
    handleFrame f s = handleGet f s := by
  simp only [handleFrame, kind]
  rfl

/-- From IDLE, Get. -/
theorem take_get {s : State} {f : Frame} {rest : List Frame} (h : AtTake s f rest)
    (kind : f.kind = kGet) :
    exec .get s = .next (handleGet f { s with inbound := rest }) := by
  simp only [exec, execGet, takeKind_idle h _ kind, handleFrame_get _ kind]

theorem handleFrame_stat {f : Frame} (s : State) (kind : f.kind = kStat) :
    handleFrame f s = handleStat f s := by
  simp only [handleFrame, kind]
  rfl

/-- From IDLE, Stat. -/
theorem take_stat {s : State} {f : Frame} {rest : List Frame} (h : AtTake s f rest)
    (kind : f.kind = kStat) :
    exec .stat s = .next (handleStat f { s with inbound := rest }) := by
  simp only [exec, execStat, takeKind_idle h _ kind, handleFrame_stat _ kind]

theorem handleFrame_delete {f : Frame} (s : State) (kind : f.kind = kDelete) :
    handleFrame f s = handleDelete f s := by
  simp only [handleFrame, kind]
  rfl

/-- From IDLE, Delete. -/
theorem take_delete {s : State} {f : Frame} {rest : List Frame} (h : AtTake s f rest)
    (kind : f.kind = kDelete) :
    exec .delete s = .next (handleDelete f { s with inbound := rest }) := by
  simp only [exec, execDelete, takeKind_idle h _ kind, handleFrame_delete _ kind]

theorem handleFrame_list {f : Frame} (s : State) (kind : f.kind = kList) :
    handleFrame f s = handleList f s := by
  simp only [handleFrame, kind]
  rfl

/-- From IDLE, List. -/
theorem take_list {s : State} {f : Frame} {rest : List Frame} (h : AtTake s f rest)
    (kind : f.kind = kList) :
    exec .list s = .next (handleList f { s with inbound := rest }) := by
  simp only [exec, execList, takeKind_idle h _ kind, handleFrame_list _ kind]

theorem handleFrame_begin {f : Frame} (s : State) (kind : f.kind = kBegin) :
    handleFrame f s = handleBegin f s := by
  simp only [handleFrame, kind]
  rfl

/-- From IDLE, Begin. -/
theorem take_begin {s : State} {f : Frame} {rest : List Frame} (h : AtTake s f rest)
    (kind : f.kind = kBegin) :
    exec .begin s = .next (handleBegin f { s with inbound := rest }) := by
  simp only [exec, execBegin, takeKind_idle h _ kind, handleFrame_begin _ kind]

theorem handleFrame_commit {f : Frame} (s : State) (kind : f.kind = kCommit) :
    handleFrame f s = handleCommit f s := by
  simp only [handleFrame, kind]
  rfl

/-- From IDLE, Commit. -/
theorem take_commit {s : State} {f : Frame} {rest : List Frame} (h : AtTake s f rest)
    (kind : f.kind = kCommit) :
    exec .commit s = .next (handleCommit f { s with inbound := rest }) := by
  simp only [exec, execCommit, takeKind_idle h _ kind, handleFrame_commit _ kind]

theorem handleFrame_discard {f : Frame} (s : State) (kind : f.kind = kDiscard) :
    handleFrame f s = handleDiscard f s := by
  simp only [handleFrame, kind]
  rfl

/-- From IDLE, Discard. -/
theorem take_discard {s : State} {f : Frame} {rest : List Frame} (h : AtTake s f rest)
    (kind : f.kind = kDiscard) :
    exec .discard s = .next (handleDiscard f { s with inbound := rest }) := by
  simp only [exec, execDiscard, takeKind_idle h _ kind, handleFrame_discard _ kind]

theorem handleFrame_tidy {f : Frame} (s : State) (kind : f.kind = kTidy) :
    handleFrame f s = handleTidy f s := by
  simp only [handleFrame, kind]
  rfl

/-- From IDLE, Tidy. -/
theorem take_tidy {s : State} {f : Frame} {rest : List Frame} (h : AtTake s f rest)
    (kind : f.kind = kTidy) :
    exec .tidy s = .next (handleTidy f { s with inbound := rest }) := by
  simp only [exec, execTidy, takeKind_idle h _ kind, handleFrame_tidy _ kind]

theorem handleFrame_format {f : Frame} (s : State) (kind : f.kind = kFormat) :
    handleFrame f s = handleFormat f s := by
  simp only [handleFrame, kind]
  rfl

/-- From IDLE, Format. -/
theorem take_format {s : State} {f : Frame} {rest : List Frame} (h : AtTake s f rest)
    (kind : f.kind = kFormat) :
    exec .format s = .next (handleFormat f { s with inbound := rest }) := by
  simp only [exec, execFormat, takeKind_idle h _ kind, handleFrame_format _ kind]

theorem handleFrame_setLimit {f : Frame} (s : State) (kind : f.kind = kSetLimit) :
    handleFrame f s = handleSetLimit f s := by
  simp only [handleFrame, kind]
  rfl

/-- From IDLE, SetLimit. -/
theorem take_setLimit {s : State} {f : Frame} {rest : List Frame} (h : AtTake s f rest)
    (kind : f.kind = kSetLimit) :
    exec .setLimit s = .next (handleSetLimit f { s with inbound := rest }) := by
  simp only [exec, execSetLimit, takeKind_idle h _ kind, handleFrame_setLimit _ kind]

theorem handleFrame_lock {f : Frame} (s : State) (kind : f.kind = kLock) :
    handleFrame f s = handleLock f s := by
  simp only [handleFrame, kind]
  rfl

/-- From IDLE, Lock. -/
theorem take_lock {s : State} {f : Frame} {rest : List Frame} (h : AtTake s f rest)
    (kind : f.kind = kLock) :
    exec .lock s = .next (handleLock f { s with inbound := rest }) := by
  simp only [exec, execLock, takeKind_idle h _ kind, handleFrame_lock _ kind]

theorem handleFrame_lockdown {f : Frame} (s : State) (kind : f.kind = kLockdown) :
    handleFrame f s = handleLockdown f s := by
  simp only [handleFrame, kind]
  rfl

/-- From IDLE, Lockdown. -/
theorem take_lockdown {s : State} {f : Frame} {rest : List Frame} (h : AtTake s f rest)
    (kind : f.kind = kLockdown) :
    exec .lockdown s = .next (handleLockdown f { s with inbound := rest }) := by
  simp only [exec, execLockdown, takeKind_idle h _ kind, handleFrame_lockdown _ kind]

theorem handleFrame_persist {f : Frame} (s : State) (kind : f.kind = kPersist) :
    handleFrame f s = handlePersist f s := by
  simp only [handleFrame, kind]
  rfl

/-- From IDLE, Persist. -/
theorem take_persist {s : State} {f : Frame} {rest : List Frame} (h : AtTake s f rest)
    (kind : f.kind = kPersist) :
    exec .persist s = .next (handlePersist f { s with inbound := rest }) := by
  simp only [exec, execPersist, takeKind_idle h _ kind, handleFrame_persist _ kind]

theorem handleFrame_gateClose {f : Frame} (s : State) (kind : f.kind = kGateClose) :
    handleFrame f s = handleGateClose f s := by
  simp only [handleFrame, kind]
  rfl

/-- From IDLE, GateClose. -/
theorem take_gateClose {s : State} {f : Frame} {rest : List Frame} (h : AtTake s f rest)
    (kind : f.kind = kGateClose) :
    exec .gateClose s = .next (handleGateClose f { s with inbound := rest }) := by
  simp only [exec, execGateClose, takeKind_idle h _ kind, handleFrame_gateClose _ kind]

theorem handleFrame_unlock {f : Frame} (s : State) (kind : f.kind = kUnlock) :
    handleFrame f s = handleUnlock f s := by
  simp only [handleFrame, kind]
  rfl

/-- From IDLE, Unlock. -/
theorem take_unlock {s : State} {f : Frame} {rest : List Frame} (h : AtTake s f rest)
    (kind : f.kind = kUnlock) :
    exec .unlock s = .next (handleUnlock f { s with inbound := rest }) := by
  simp only [exec, execUnlock, takeKind_idle h _ kind, handleFrame_unlock _ kind]

theorem handleFrame_setPassphrase {f : Frame} (s : State) (kind : f.kind = kSetPassphrase) :
    handleFrame f s = handleSetPassphrase f s := by
  simp only [handleFrame, kind]
  rfl

/-- From IDLE, SetPassphrase. -/
theorem take_setPassphrase {s : State} {f : Frame} {rest : List Frame} (h : AtTake s f rest)
    (kind : f.kind = kSetPassphrase) :
    exec .setPassphrase s = .next (handleSetPassphrase f { s with inbound := rest }) := by
  simp only [exec, execSetPassphrase, takeKind_idle h _ kind, handleFrame_setPassphrase _ kind]

theorem handleFrame_setPolicy {f : Frame} (s : State) (kind : f.kind = kSetPolicy) :
    handleFrame f s = handleSetPolicy f s := by
  simp only [handleFrame, kind]
  rfl

/-- From IDLE, SetPolicy. -/
theorem take_setPolicy {s : State} {f : Frame} {rest : List Frame} (h : AtTake s f rest)
    (kind : f.kind = kSetPolicy) :
    exec .setPolicy s = .next (handleSetPolicy f { s with inbound := rest }) := by
  simp only [exec, execSetPolicy, takeKind_idle h _ kind, handleFrame_setPolicy _ kind]

theorem handleFrame_finalize {f : Frame} (s : State) (kind : f.kind = kFinalize) :
    handleFrame f s = handleFinalize f s := by
  simp only [handleFrame, kind]
  rfl

/-- From IDLE, Finalize. -/
theorem take_finalize {s : State} {f : Frame} {rest : List Frame} (h : AtTake s f rest)
    (kind : f.kind = kFinalize) :
    exec .finalize s = .next (handleFinalize f { s with inbound := rest }) := by
  simp only [exec, execFinalize, takeKind_idle h _ kind, handleFrame_finalize _ kind]

theorem handleFrame_protectStatus {f : Frame} (s : State) (kind : f.kind = kProtectStatus) :
    handleFrame f s = handleProtectStatus f s := by
  simp only [handleFrame, kind]
  rfl

/-- From IDLE, ProtectStatus. -/
theorem take_protectStatus {s : State} {f : Frame} {rest : List Frame} (h : AtTake s f rest)
    (kind : f.kind = kProtectStatus) :
    exec .protectStatus s = .next (handleProtectStatus f { s with inbound := rest }) := by
  simp only [exec, execProtectStatus, takeKind_idle h _ kind, handleFrame_protectStatus _ kind]

theorem handleFrame_reset {f : Frame} (s : State) (kind : f.kind = kReset) :
    handleFrame f s = handleReset f s := by
  simp only [handleFrame, kind]
  rfl

/-- From IDLE, Reset. -/
theorem take_reset {s : State} {f : Frame} {rest : List Frame} (h : AtTake s f rest)
    (kind : f.kind = kReset) :
    exec .reset s = .next (handleReset f { s with inbound := rest }) := by
  simp only [exec, execReset, takeKind_idle h _ kind, handleFrame_reset _ kind]

theorem handleFrame_unknown {f : Frame} (s : State) (kind : requestKinds.contains f.kind = false) :
    handleFrame f s = handleUnknown f s := by
  simp only [requestKinds, List.contains_cons, List.contains_nil, Bool.or_eq_false_iff,
    beq_eq_false_iff_ne, ne_eq] at kind
  simp [handleFrame, kind]

/-- From IDLE, a frame of no request kind. -/
theorem take_unknownKind {s : State} {f : Frame} {rest : List Frame} (h : AtTake s f rest)
    (kind : requestKinds.contains f.kind = false) :
    exec .unknownKind s = .next (handleUnknown f { s with inbound := rest }) := by
  simp only [exec, execUnknownKind]
  rw [takeHead_idle h _ (by simp only [kind, Bool.not_false]), handleFrame_unknown _ kind]

end Sys2Proof.Machine
end

