-- ==== Sys2Proof/Tests/Slice0.lean ====
section
/-!
SUPPORT. Tests: ill-formed commands that WellFormed refuses, worked figures of the spec, and, for every
statement with hypotheses, a witness: a concrete state and operands that meet the hypotheses of each of
its clauses.
-/

namespace Sys2Proof.Tests

open Sys2Proof Sys2Proof.Machine

/-! ## WellFormed refuses what no event can have -/

theorem test_send_of_249_bytes_is_refused :
    Instr.wellFormed (.send 0x08 1 (List.replicate 249 0) 0) = false := by
  rw [Instr.wellFormed, List.length_replicate]
  rfl
theorem test_send_of_248_bytes_is_admitted :
    Instr.wellFormed (.send 0x08 1 (List.replicate 248 0) 0) = true := by
  rw [Instr.wellFormed, List.length_replicate]
  rfl
theorem test_known_operation_is_refused :
    Instr.wellFormed (.unknownOperation 0xA1) = false ∧
      Instr.wellFormed (.unknownOperation 0xA5) = false := by decide
theorem test_unknown_operation_is_admitted :
    Instr.wellFormed (.unknownOperation 0xA0) = true ∧
      Instr.wellFormed (.unknownOperation 0xA6) = true := by decide
theorem test_complete_transaction_is_no_cut :
    Instr.wellFormed (.transactionCut [0xA2]) = false ∧
      Instr.wellFormed (.transactionCut [0xA3, 0x06]) = false ∧
      Instr.wellFormed (.transactionCut [0xA1, 0x01, 0x00, 0x00, 0x12, 0x34]) = false := by decide
theorem test_cut_transaction_is_admitted :
    Instr.wellFormed (.transactionCut []) = true ∧ Instr.wellFormed (.transactionCut [0xA3]) = true ∧
      Instr.wellFormed (.transactionCut [0xA1, 0x01, 0x00, 0x00, 0x12]) = true := by decide
theorem test_bad_length_of_248_is_refused :
    Instr.wellFormed (.sendBadLength 0x08 1 248) = false ∧
      Instr.wellFormed (.sendBadLength 0x08 1 249) = true := by decide
theorem test_read_place_beyond_a_segment_is_refused :
    Instr.wellFormed (.mountReadDone [16384]) = false ∧
      Instr.wellFormed (.mountReadDone [16383]) = true := by decide

/-! ## Worked figures of the spec -/

set_option maxRecDepth 8000 in
/-- R179: the CRC-16 over the nine bytes "1" to "9" is 0x29B1. -/
theorem test_crc_of_nine_digits :
    crc16 [0x31, 0x32, 0x33, 0x34, 0x35, 0x36, 0x37, 0x38, 0x39] = 0x29B1 := by decide

/-- R48: a record is its 20 header bytes, key and value, rounded up to a multiple of 4. -/
theorem test_record_sizes :
    recordSize 32 4096 = 4148 ∧ recordSize 0 0 = 20 ∧ recordSize 0 4 = 24 ∧ recordSize 1 1 = 24 ∧
      recordSize 7 4 = 32 := by decide

/-- R2: the first byte that differs decides, and a proper beginning orders first. -/
theorem test_key_order :
    keyLt [0x41] [0x42] = true ∧ keyLt [0x41] [0x41, 0x00] = true ∧ keyLt [0xFF] [0x41] = false ∧
      keyLt [0x41] [0x41] = false := by decide

/-- R179: numbers in payloads are little-endian. -/
theorem test_little_endian : le 4 0x01020304 = [0x04, 0x03, 0x02, 0x01] := by decide

/-- R163: the first bytes of the IDENT reply are 0x2408, 0x01 and 1,048,576. -/
theorem test_ident_payload :
    identPayload.length = 25 ∧
      identPayload.take 7 = [0x08, 0x24, 0x01, 0x00, 0x00, 0x10, 0x00] := by decide

/-! ## A small READY part -/

/-- A segment of the small part. -/
def seg (state : SegState) (stamp : Option Nat) (count used live : Nat) : SegEntry :=
  { state := state, stamp := stamp, eraseCount := count, used := used, live := live
    suspect := false, pin := false, reclaimMarked := false }

/-- Segment 0 is the head, 1 to 5 are ERASED, 6 and 7 FILLED. -/
def segs : List SegEntry :=
  [seg .opened (some 3) 1 100 60, seg .erased none 3 0 0, seg .erased none 2 0 0,
    seg .erased none 4 0 0, seg .erased none 2 0 0, seg .erased none 5 0 0,
    seg .filled (some 1) 1 16320 40, seg .filled (some 2) 1 16320 0]

/-- Key 0x4B of namespace 0, LIVE with 3 bytes at offset 64 of segment 0. -/
def entryK : Entry :=
  { ns := 0, key := [0x4B], state := .live 3, version := 7, loc := { seg := 0, off := 64 } }

/-- Key 0x4C of namespace 0, BURIED. -/
def entryL : Entry :=
  { ns := 0, key := [0x4C], state := .buried, version := 8, loc := { seg := 6, off := 64 } }

/-- READY, nothing in hand, SN counter 9, stamp counter 4. -/
def base : State :=
  { State.reset with
    mount := none
    dir := [entryK, entryL]
    prot := { State.reset.prot with gateOpen := true }
    log := { State.reset.log with device := .ready, segs := segs, sn := 9, stamp := 4 }
    ctrl := { State.reset.ctrl with cur := none } }

/-- A frame with tag 0x12. -/
def frame (kind : Byte) (payload : Bytes) : Frame := { kind := kind, tag := 0x12, payload := payload }

/-- The record of key 0x4B. -/
def recordK (value : Bytes) : Record :=
  { kind := .value, ns := 0, tagged := false, key := [0x4B], value := value, sn := 7 }

/-- A VALUE record of key 0x4E with 4 bytes. -/
def recordN : Record :=
  { kind := .value, ns := 0, tagged := false, key := [0x4E], value := [1, 2, 3, 4], sn := 9 }

/-- Where the small part places its next record. -/
def nextLoc : Loc := { seg := 0, off := 164 }

/-- The small part with this frame to take. -/
def holding (f : Frame) : State := { base with inbound := [f] }

theorem atTake (f : Frame) : AtTake (holding f) f [] :=
  ⟨rfl, rfl, (by decide : DeviceState.ready ≠ .mounting), rfl, rfl, (by decide : 0 < 8), rfl⟩

/-- The same in READ_ONLY. -/
def holdingReadOnly (f : Frame) : State :=
  { holding f with log := { base.log with device := .readOnly } }

theorem atTakeReadOnly (f : Frame) : AtTake (holdingReadOnly f) f [] :=
  ⟨rfl, rfl, (by decide : DeviceState.readOnly ≠ .mounting), rfl, rfl, (by decide : 0 < 8), rfl⟩

/-- The same with a group. -/
def holdingIn (g : Group) (f : Frame) : State := { holding f with group := g }

theorem atTakeIn (g : Group) (f : Frame) : AtTake (holdingIn g f) f [] :=
  ⟨rfl, rfl, (by decide : DeviceState.ready ≠ .mounting), rfl, rfl, (by decide : 0 < 8), rfl⟩

/-- A staged PUT of key 0x4D. -/
def pendingM : Pending :=
  { isPut := true, ns := 0, key := [0x4D], sn := 9, loc := { seg := 0, off := 164 }, length := 2
    standing := .current }

/-- An OPEN group with one staged PUT. -/
def openGroup : Group := { state := .opened, firstSn := some 9, list := [pendingM], reserved := [] }

/-- An OPEN group with nothing staged. -/
def emptyGroup : Group := { State.reset.group with state := .opened, firstSn := some 9 }

/-- A FAILED group. -/
def failedGroup : Group := { openGroup with state := .failed }

/-- An OPEN group with 32 staged operations. -/
def fullGroup : Group := { openGroup with list := List.replicate 32 pendingM }

theorem places (f : Frame) (size : Nat) (h : size ≤ 4148) : PlacesAtOnce (holding f) 0 size :=
  ⟨rfl, rfl, rfl, rfl, Nat.le_trans (Nat.add_le_add_left h 100) (by decide), rfl, rfl,
    (by decide : 9 + 1 ≠ 4294967295)⟩

theorem placesIn (g : Group) (f : Frame) (size : Nat) (h : size ≤ 4148) :
    PlacesAtOnce (holdingIn g f) 0 size :=
  ⟨rfl, rfl, rfl, rfl, Nat.le_trans (Nat.add_le_add_left h 100) (by decide), rfl, rfl,
    (by decide : 9 + 1 ≠ 4294967295)⟩

theorem portReady : PortReady base := ⟨rfl, rfl, rfl⟩

theorem nothingDue : NothingDue base base.dir :=
  ⟨rfl, rfl, rfl, rfl, rfl, by decide, by decide⟩

/-! ## Witnesses: steps and invariants -/

/-- READY, with a frame to take and the command that takes it in front. -/
def stepping : State := { holding (frame 0x01 []) with pending := [.ident] }

theorem test_witness_step_idles : State.reset.pending = [] := rfl

theorem test_witness_queues :
    QueueInv stepping ∧ ∃ t, step stepping = .next t ∧ t.replies.length = 1 :=
  ⟨⟨by decide, by decide, by decide, fun _ => rfl⟩, _, rfl, by decide⟩

theorem test_witness_directory :
    DirInv stepping ∧ ∃ t, step stepping = .next t ∧ t.dir.length = 2 :=
  ⟨⟨show List.Pairwise _ [entryK, entryL] from by decide, nofun⟩, _, rfl, by decide⟩

theorem test_witness_ranges :
    RangeInv { stepping with pending := [.select] } ∧
      ∃ t, step { stepping with pending := [.select] } = .next t :=
  ⟨⟨by decide, by decide, by decide, by decide⟩, _, rfl⟩

theorem mountingInv : MountingInv State.reset :=
  ⟨rfl, rfl, rfl, rfl, rfl, rfl, rfl, rfl, rfl, rfl, rfl, rfl, by
    intro op h; cases h; rfl⟩

/-- Every block has a request at the array controller: a record's program in progress, the FILLED mark of
the old head, the unwanted read of a cancelled GET and a copy's read waiting, and the read of the next GET
held back. -/
def busyController : Controller :=
  { cur := some (.programRecord nextLoc recordN)
    queue := [.filledMark 7, .getFirstRead entryK.loc false, .copyRead { seg := 6, off := 64 }]
    held := [.getFirstRead entryK.loc true], paused := none, pauseCount := 0 }

theorem test_witness_controller :
    ControllerInv busyController ∧
      busyController.cur = some (.programRecord nextLoc recordN) ∧
      ArrayOp.ofMount (.programRecord nextLoc recordN) = false ∧
      ∃ t, step { stepping with ctrl := busyController } = .next t ∧ t.replies.length = 1 :=
  ⟨⟨show List.Pairwise (fun a b : ArrayOp => a.requester ≠ b.requester ∨ a.pairs b = true) _ from by decide,
    show ∀ op ∈ [_, _, _, _], _ from by decide⟩, rfl, rfl, _, rfl, by decide⟩

theorem test_witness_mounting :
    let s := { State.reset with pending := [.fetch] }
    MountingInv s ∧ ∃ t, step s = .next t ∧ t.log.device = .mounting :=
  ⟨⟨rfl, rfl, rfl, rfl, rfl, rfl, rfl, rfl, rfl, rfl, rfl, rfl, by intro op h; cases h; rfl⟩, _, rfl, rfl⟩

theorem test_witness_context_kept :
    (∃ t, exec .ident stepping = .next t) ∧ Instr.ident ≠ .select ∧
      ∀ number f, Instr.ident = .take number → stepping.engine.breaking = some f → f.kind ≠ 0x02 :=
  ⟨⟨_, rfl⟩, nofun, nofun⟩

theorem test_witness_array_kept :
    (∃ t, exec .put (holding (frame 0x08 [])) = .next t) ∧ base.engine.breaking = none :=
  ⟨⟨_, rfl⟩, rfl⟩

theorem test_witness_lockdowns :
    (∃ t, exec .lockdown (holding (frame 0x21 [0x81])) = .next t ∧ t.prot.lockdowns = 0x81) ∧
      (let s := { holding (frame 0x3F []) with prot := { base.prot with lockdowns := 0x81 } }
      s.powered = true ∧ s.rst = false ∧ AtTake s (frame 0x3F []) []) :=
  ⟨⟨_, rfl, by decide⟩, rfl, rfl,
    ⟨rfl, rfl, (by decide : DeviceState.ready ≠ .mounting), rfl, rfl, (by decide : 0 < 8), rfl⟩⟩

/-! ## Witnesses: resets -/

theorem test_witness_resets :
    base.ctrl.cur = none ∧ base.ctrl.paused = none ∧ base.powered = true ∧ base.rst = false ∧
      AtTake (holding (frame 0x3F [])) (frame 0x3F []) [] ∧
      AtTake (holding (frame 0x3F [0x00])) (frame 0x3F [0x00]) [] :=
  ⟨rfl, rfl, rfl, rfl, atTake _, atTake _⟩

/-- The small part with this operation in progress. -/
def doing (op : ArrayOp) : State := { base with ctrl := { base.ctrl with cur := some op } }

theorem runningDoing (op : ArrayOp) : Running (doing op) op := ⟨rfl, rfl, rfl, rfl, rfl, rfl⟩

theorem test_witness_reset_aborts :
    (doing (.programRecord nextLoc recordN)).ctrl.paused = none ∧
      (doing (.programRecord nextLoc recordN)).ctrl.cur = some (.programRecord nextLoc recordN) ∧
      (doing (.copyRead nextLoc)).ctrl.cur = some (.copyRead nextLoc) := ⟨rfl, rfl, rfl⟩

theorem test_witness_rst_release :
    (let s := { base with rst := true, sel := true }
    s.powered = true ∧ s.rst = true ∧ s.ctrl.cur = none ∧ s.sel = true) ∧
      (let s := { base with rst := true, powered := false }
      s.powered = false ∧ s.rst = true) ∧ base.rst = false :=
  ⟨⟨rfl, rfl, rfl, rfl⟩, ⟨rfl, rfl⟩, rfl⟩

theorem test_witness_held :
    { base with rst := true }.rst = true ∧ Instr.fetch ≠ .rstReleased ∧ Instr.fetch ≠ .powerOn ∧
      Instr.fetch ≠ .powerLoss ∧ Instr.fetch ≠ .selReleased ∧ Sends .fetch [0xA2] ∧
      (Instr.put ≠ .rstReleased ∧ Instr.put ≠ .powerOn ∧ Instr.put ≠ .powerLoss ∧
        Instr.put ≠ .selReleased) ∧ ∀ bytes, ¬ Sends .put bytes :=
  ⟨rfl, nofun, nofun, nofun, nofun, .fetch, ⟨nofun, nofun, nofun, nofun⟩, nofun⟩

/-! ## Witnesses: the link -/

theorem test_witness_send :
    PortReady base ∧ ([] : Bytes).length ≤ 248 ∧ (List.replicate 248 (0 : Byte)).length ≤ 248 ∧
      248 < (249 : Byte).toNat ∧ base.sel = false ∧ base.port = State.reset.port :=
  ⟨portReady, by decide, by rw [List.length_replicate], by decide, rfl, rfl⟩

/-- A reply of the reply queue. -/
def reply (seq : Byte) : Reply :=
  { seq := seq, out := { kind := 0x8B, tag := 0x12, status := .ok, payload := [] } }

theorem test_witness_fetch : PortReady base ∧ base.replies = [] ∧
    PortReady { base with replies := [reply 0] } := ⟨portReady, rfl, ⟨rfl, rfl, rfl⟩⟩

/-- Eight frames wait, the engine waits with one reply, and a notice is pending. -/
def crowded : State :=
  { base with
    replies := [reply 0, reply 1, reply 2, reply 3, reply 4, reply 5, reply 6, reply 7]
    replySeq := 8
    notices := [.readOnly .retirement 3 9]
    engine := { base.engine with
      state := .replyWait
      decided := [{ kind := 0x8B, tag := 0x13, status := .ok, payload := [] }] } }

theorem test_witness_take :
    PortReady base ∧ base.replies = [] ∧
      (let s := { base with replies := [reply 6] }
      PortReady s ∧ s.replies = [reply 6] ∧ (reply 6).seq ≠ 7 ∧ (reply 6).seq = 6 ∧
        s.notices = [] ∧ s.engine.state ≠ .replyWait ∧ s.engine.state ≠ .streaming) ∧
      PortReady crowded ∧
      crowded.replies = reply 0 ::
        [reply 1, reply 2, reply 3, reply 4, reply 5, reply 6, reply 7] ∧
      crowded.engine.state = .replyWait ∧
      crowded.engine.decided = [{ kind := 0x8B, tag := 0x13, status := .ok, payload := [] }] ∧
      crowded.engine.breaking = none ∧ crowded.notices = [.readOnly .retirement 3 9] ∧
      { crowded with notices := [] }.notices = [] :=
  ⟨portReady, rfl, ⟨⟨rfl, rfl, rfl⟩, rfl, by decide, rfl, rfl, nofun, nofun⟩, ⟨rfl, rfl, rfl⟩, rfl, rfl,
    rfl, rfl, rfl, rfl⟩

theorem test_witness_poll :
    PortReady base ∧ PortReady State.reset ∧ State.reset.log.device = .mounting ∧
      MountingInv State.reset ∧ QueueInv crowded ∧ noticeMask crowded ≠ 0 :=
  ⟨portReady, ⟨rfl, rfl, rfl⟩, rfl, mountingInv,
    ⟨by decide, by decide, by decide, fun h => absurd h (by decide)⟩, by decide⟩

/-- The request of a PUT with tag 0x12 and namespace 0. -/
def requestOfKind (kind : Byte) : Request := { kind := kind, tag := 0x12, ns := 0, mode := .full }

/-- The engine of the small part in this state, with a request of this kind. -/
def engaged (kind : Byte) (state : EngineState) : Engine :=
  { base.engine with state := state, request := some (requestOfKind kind) }

theorem test_witness_cancel_queue :
    PortReady (holding (frame 0x01 [])) ∧
      ∀ r, (holding (frame 0x01 [])).engine.request = some r → r.tag ≠ 0x12 :=
  ⟨⟨rfl, rfl, rfl⟩, nofun⟩

/-- The PUT of key 0x4E. -/
def jobN : Job := { purpose := .put false, record := { recordN with sn := 0 } }

/-- A stream of key 0x4B at its start. -/
def streamK : Stream :=
  { key := [0x4B], version := 7, length := 3, loc := { seg := 0, off := 64 }, sent := 0, chunk := none }

/-- The engine's grant over the record of the PUT, at this stage. -/
def grantN (stage : GrantStage) : Grant :=
  { claimant := .engine, record := recordN, retry := false, stage := stage, abandoned := false }

/-- The PUT in hand, in this engine state, with this grant. -/
def putting (state : EngineState) (grant : Option Grant) : State :=
  { base with
    engine := { engaged 0x08 state with job := some jobN }
    log := { base.log with grant := grant } }

theorem test_witness_unknown_operation :
    PortReady base ∧ Instr.wellFormed (.unknownOperation 0xA0) = true ∧
      Instr.wellFormed (.unknownOperation 0xA6) = true := ⟨portReady, by decide, by decide⟩

theorem test_witness_sel :
    PortReady base ∧ Instr.wellFormed (.transactionCut []) = true ∧
      Instr.wellFormed (.transactionCut [0xA3]) = true ∧ ([true, false] : List Bool).length < 8 :=
  ⟨portReady, rfl, by decide, by decide⟩

theorem test_witness_open_transaction :
    PortReady base ∧ Instr.wellFormed (.transactionCut [0xA3] true) = true ∧
      (Sends (.take 6) [0xA3, 6] ∧ Instr.wellFormed (.take 6) = true ∧
        ([0xA3] : Bytes) <+: [0xA3, 6]) ∧
      (Sends .fetch [0xA2] ∧ Instr.wellFormed .fetch = true ∧ ¬ ([0xA3] : Bytes) <+: [0xA2]) ∧
      PortReady (holding (frame 0x3F [])) ∧ AtTake (holding (frame 0x3F [])) (frame 0x3F []) [] :=
  ⟨portReady, by decide, ⟨.take 6, rfl, by decide⟩, ⟨.fetch, rfl, by decide⟩, ⟨rfl, rfl, rfl⟩, atTake _⟩

theorem test_witness_no_transaction :
    (let s := linked 0xA4 1 [] [] base
    s.powered = true ∧ s.rst = false ∧ s.port.phase ≠ .idle ∧ s.port.phase ≠ .receiving) ∧
      (let s := { base with port := { State.reset.port with phase := .abandoned } }
      s.port.phase ≠ .idle ∧ s.port.phase ≠ .receiving) :=
  ⟨⟨rfl, rfl, nofun, nofun⟩, nofun, nofun⟩

/-! ## Witnesses: requests decided at their take -/

theorem test_witness_ident :
    AtTake (holding (frame 0x01 [])) (frame 0x01 []) [] ∧
      AtTake (holding (frame 0x01 [0x00])) (frame 0x01 [0x00]) [] := ⟨atTake _, atTake _⟩

theorem test_witness_select :
    AtTake (holding (frame 0x02 [0x07, 0x01, 0x07])) (frame 0x02 [0x07, 0x01, 0x07]) [] ∧
      (0x07 : Byte).toNat ≤ 7 ∧ (0x01 : Byte).toNat ≤ 1 ∧
      AtTake (holding (frame 0x02 [0x08, 0x00, 0x00])) (frame 0x02 [0x08, 0x00, 0x00]) [] ∧
      ¬ ∃ n m w : Byte, [(0x08 : Byte), 0x00, 0x00] = [n, m, w] ∧ n.toNat ≤ 7 ∧ m.toNat ≤ 1 ∧
        w.toNat ≤ 7 := by
  refine ⟨atTake _, by decide, by decide, atTake _, ?_⟩
  rintro ⟨n, m, w, h, hn, -⟩
  simp only [List.cons.injEq] at h
  rw [← h.1] at hn
  exact absurd hn (by decide)

theorem test_witness_space :
    AtTake (holding (frame 0x03 [])) (frame 0x03 []) [] ∧
      base.log.segs.findIdx? (fun e => e.state = .opened) = some 0 ∧
      (∀ e ∈ State.reset.log.segs, e.state ≠ .opened) := ⟨atTake _, by decide, nofun⟩

theorem isKeyK : IsKey [0x01, 0x4B] [0x4B] := ⟨rfl, by decide, by decide⟩

theorem test_witness_stat :
    AtTake (holding (frame 0x0B [0x01, 0x4B])) (frame 0x0B [0x01, 0x4B]) [] ∧
      IsKey [0x01, 0x4B] [0x4B] ∧ AtTake (holding (frame 0x0B [])) (frame 0x0B []) [] ∧
      ¬ ∃ key, IsKey [] key := ⟨atTake _, isKeyK, atTake _, fun ⟨_, h, _⟩ => nomatch h⟩

theorem test_witness_list :
    AtTake (holding (frame 0x0D [0x10, 0x00])) (frame 0x0D [0x10, 0x00]) [] ∧
      IsList [0x10, 0x00] 16 [] ∧ AtTake (holding (frame 0x0D [])) (frame 0x0D []) [] ∧
      ¬ ∃ count cursor, IsList [] count cursor :=
  ⟨atTake _, ⟨rfl, by decide, by decide, by decide⟩, atTake _, fun ⟨_, _, h, _⟩ => nomatch h⟩

theorem test_witness_locks :
    AtTake (holding (frame 0x20 [0x81, 0x01])) (frame 0x20 [0x81, 0x01]) [] ∧
      (0x01 : Byte).toNat ≤ 1 ∧ AtTake (holding (frame 0x20 [])) (frame 0x20 []) [] ∧
      (¬ ∃ mask action : Byte, ([] : Bytes) = [mask, action] ∧ action.toNat ≤ 1) ∧
      AtTake (holding (frame 0x21 [0x80])) (frame 0x21 [0x80]) [] ∧
      AtTake (holding (frame 0x21 [])) (frame 0x21 []) [] ∧ ([] : Bytes).length ≠ 1 ∧
      (let s := { holding (frame 0x20 [0x80, 0x00]) with
        prot := { base.prot with lockdowns := 0x80 } }
      AtTake s (frame 0x20 [0x80, 0x00]) [] ∧ (0x80 : Byte).getLsbD 7 = true ∧
        s.prot.lockdowns.getLsbD 7 = true ∧ s.group.state = .noGroup) :=
  ⟨atTake _, by decide, atTake _, fun ⟨_, _, h, _⟩ => (nomatch h), atTake _, atTake _, by decide,
    ⟨rfl, rfl, (by decide : DeviceState.ready ≠ .mounting), rfl, rfl, (by decide : 0 < 8), rfl⟩,
    by decide, by decide, rfl⟩

theorem test_witness_gate :
    AtTake (holding (frame 0x23 [])) (frame 0x23 []) [] ∧
      AtTake (holding (frame 0x24 [])) (frame 0x24 []) [] := ⟨atTake _, atTake _⟩

theorem test_witness_protect_status :
    AtTake (holding (frame 0x28 [])) (frame 0x28 []) [] := atTake _

theorem test_witness_unknown_kind :
    AtTake (holding (frame 0x04 [])) (frame 0x04 []) [] ∧ (frame 0x04 []).kind ∉ requestKinds :=
  ⟨atTake _, by decide⟩

/-! ## Witnesses: groups, passes, formats and settings -/

theorem test_witness_begin_and_discard :
    AtTake (holding (frame 0x10 [])) (frame 0x10 []) [] ∧
      AtTake (holding (frame 0x12 [])) (frame 0x12 []) [] ∧ (holding (frame 0x12 [])).group.state = .noGroup ∧
      AtTake (holdingIn openGroup (frame 0x12 [])) (frame 0x12 []) [] ∧
      (holdingIn openGroup (frame 0x12 [])).group.state ≠ .noGroup ∧
      (∀ c, (holdingIn openGroup (frame 0x12 [])).reclaim.copy = some c → c.owner = .group →
        c.placed ≠ none) ∧
      (let copy := Copy.of .group 0 [0x4D] 9 nextLoc 24
      let s := { holdingIn openGroup (frame 0x12 []) with
        reclaim := { base.reclaim with copy := some copy } }
      AtTake s (frame 0x12 []) [] ∧ s.reclaim.copy = some copy ∧ copy.owner = .group ∧
        copy.placed = none ∧ copy.buffer = none) :=
  ⟨atTake _, atTake _, rfl, atTakeIn _ _, nofun, nofun,
    ⟨rfl, rfl, (by decide : DeviceState.ready ≠ .mounting), rfl, rfl, (by decide : 0 < 8), rfl⟩, rfl, rfl,
    rfl, rfl⟩

theorem test_witness_commit :
    AtTake (holding (frame 0x11 [0x00])) (frame 0x11 [0x00]) [] ∧
      (holdingReadOnly (frame 0x11 [])).log.device = .readOnly ∧
      AtTake (holdingReadOnly (frame 0x11 [])) (frame 0x11 []) [] ∧
      (holding (frame 0x11 [])).group.state = .noGroup ∧
      (holdingIn failedGroup (frame 0x11 [])).group.state = .failed ∧
      (holdingIn emptyGroup (frame 0x11 [])).group.list = [] ∧
      AtTake (holdingIn openGroup (frame 0x11 [])) (frame 0x11 []) [] ∧
      (holdingIn openGroup (frame 0x11 [])).log.device = .ready ∧
      (holdingIn openGroup (frame 0x11 [])).group.list ≠ [] ∧
      (holdingIn openGroup (frame 0x11 [])).group.firstSn = some 9 ∧
      PlacesAtOnce (holdingIn openGroup (frame 0x11 [])) 0 24 :=
  ⟨atTake _, rfl, atTakeReadOnly _, rfl, rfl, rfl, atTakeIn _ _, rfl, nofun, rfl,
    placesIn _ _ _ (by decide)⟩

theorem test_witness_tidy :
    AtTake (holding (frame 0x18 [0x00])) (frame 0x18 [0x00]) [] ∧
      AtTake (holding (frame 0x18 [0x40])) (frame 0x18 [0x40]) [] ∧ (0x40 : Byte).toNat ≤ 64 ∧
      (holdingReadOnly (frame 0x18 [0x01])).log.device = .readOnly ∧
      (∀ e ∈ ([] : List SegEntry), e.state ≠ .filled) ∧
      { holding (frame 0x18 [0x01]) with
        reclaim := { base.reclaim with state := .copying } }.reclaim.state ≠ .idle ∧
      (holding (frame 0x18 [0x01])).reclaim.state = .idle ∧ chooseVictim segs = some 6 ∧
      (∃ e ∈ segs, e.state = .filled) ∧ (segAt segs 6).reclaimMarked = false ∧
      base.ctrl.cur = none ∧ base.ctrl.queue = [] ∧ base.ctrl.paused = none ∧
      AtTake (holdingReadOnly (frame 0x18 [0x01])) (frame 0x18 [0x01]) [] :=
  ⟨atTake _, atTake _, by decide, rfl, nofun, nofun, rfl, by decide, by decide, rfl, rfl, rfl, rfl,
    atTakeReadOnly _⟩

theorem test_witness_format :
    AtTake (holding (frame 0x19 [])) (frame 0x19 []) [] ∧
      AtTake (holdingReadOnly (frame 0x19 [])) (frame 0x19 []) [] ∧
      (holding (frame 0x19 [])).group.state = .noGroup ∧ (holding (frame 0x19 [])).prot.gateOpen = true ∧
      formatBar (holding (frame 0x19 [])) = false ∧
      base.prot.sessionLocks ||| persistentLocks base = 0 ∧
      PlacesAtOnce (holding (frame 0x19 [])) 0 20 :=
  ⟨atTake _, atTakeReadOnly _, rfl, rfl, by decide, by decide, places _ _ (by decide)⟩

/-- Policy PASSPHRASE, and the gate still OPEN. -/
def protectedPart (f : Frame) : State :=
  { holding f with
    prot := { base.prot with settings := [{ id := 0x20, value := [0x02], sn := 3, loc := nextLoc }] } }

theorem test_witness_settings :
    (let f := frame 0x1A [0x07, 0x00, 0x04]
    AtTake (holding f) f [] ∧
      AsksSetting (holding f) .setLimit 0x1A f.payload (0x10 + 0x07) [0x00, 0x04] False ∧
      (holding f).group.state = .noGroup ∧ (holding f).prot.gateOpen = true ∧
      PlacesAtOnce (holding f) 0 (recordSize 1 2)) ∧
    (let f := frame 0x22 [0x81, 0x00]
    AtTake (holdingReadOnly f) f [] ∧
      AsksSetting (holdingReadOnly f) .persist 0x22 f.payload 0x01
        [persistentLocks (holdingReadOnly f) &&& ~~~0x81] (locksFinal (holdingReadOnly f) = true) ∧
      AtTake (holdingIn openGroup f) f [] ∧ (holdingIn openGroup f).group.state ≠ .noGroup ∧
      locksFinal (holding f) = false) ∧
    (let f := frame 0x26 [0x01]
    AtTake (protectedPart f) f [] ∧
      AsksSetting (protectedPart f) .setPolicy 0x26 f.payload 0x20 [0x01]
        (policyOf (protectedPart f).prot.settings ≠ .unset) ∧
      policyOf (protectedPart f).prot.settings ≠ .unset) ∧
    (let f := frame 0x27 [0x03]
    AsksSetting (holding f) .finalize 0x27 f.payload 0x22 [finalSwitches (holding f) ||| 0x03] False) ∧
    (let f := frame 0x27 [0x04]
    AtTake (holding f) f [] ∧ (Instr.finalize, (0x27 : Byte)) ∈ settingRequests ∧
      ¬ ∃ id value own, AsksSetting (holding f) .finalize 0x27 f.payload id value own) := by
  refine ⟨⟨atTake _, .setLimit 0x07 0x00 0x04 (by decide) (by decide), rfl, rfl,
      places _ _ (by decide)⟩,
    ⟨atTakeReadOnly _, .persistClear 0x81, atTakeIn _ _, nofun, by decide⟩,
    ⟨⟨rfl, rfl, (by decide : DeviceState.ready ≠ .mounting), rfl, rfl, (by decide : 0 < 8), rfl⟩,
      .setPlain, by decide⟩,
    .finalize 0x03 (by decide) (by decide), atTake _, by simp [settingRequests], ?_⟩
  rintro ⟨id, value, own, h⟩
  have switches : ∀ payload, payload = [(0x04 : Byte)] →
      ¬ AsksSetting (holding (frame 0x27 [0x04])) .finalize 0x27 payload id value own := by
    intro payload hp hs
    cases hs with
    | finalize sw _ h₂ =>
      simp only [List.cons.injEq, and_true] at hp
      rw [hp] at h₂
      exact absurd h₂ (by decide)
  exact switches _ rfl h

/-! ## Witnesses: PUT, DATA, DELETE and GET -/

/-- A PUT of key 0x4E, 4 bytes, all inline, IF_VERSION or not by its condition byte. -/
def putPayload (code version : Byte) : Bytes :=
  [0x01, code, 0x04, 0x00, version, 0x00, 0x00, 0x00, 0x4E, 1, 2, 3, 4]

/-- Its form. -/
def putForm (condition : Condition) : PutForm := { key := [0x4E], condition := condition, total := 4 }

theorem isPut : IsPut (putPayload 0 0) (putForm .always) [1, 2, 3, 4] :=
  ⟨0, 4, 0, 0, 0, 0, 0, rfl, by decide, by decide, rfl, by decide, by decide, .inl ⟨rfl, rfl⟩⟩

theorem isPutIfAbsent : IsPut (putPayload 1 0) (putForm .ifAbsent) [1, 2, 3, 4] :=
  ⟨1, 4, 0, 0, 0, 0, 0, rfl, by decide, by decide, rfl, by decide, by decide, .inr (.inl ⟨rfl, rfl⟩)⟩

theorem isPutIfVersion : IsPut (putPayload 2 6) (putForm (.ifVersion 6)) [1, 2, 3, 4] :=
  ⟨2, 4, 0, 6, 0, 0, 0, rfl, by decide, by decide, rfl, by decide, by decide,
    .inr (.inr ⟨rfl, by decide, rfl⟩)⟩

/-- The complete PUT. -/
def putFrame : Frame := frame 0x08 (putPayload 0 0)

/-- A PUT of the longest key and the greatest total, with nothing inline. -/
def longPut : Bytes := [0x20, 0x00, 0x00, 0x10, 0, 0, 0, 0] ++ List.replicate 32 0x4E

theorem test_witness_put_form :
    AtTake (holding (frame 0x08 [])) (frame 0x08 []) [] ∧ (¬ ∃ form bytes, IsPut [] form bytes) ∧
      AtTake (holding (frame 0x08 longPut)) (frame 0x08 longPut) [] ∧
      IsPut longPut { key := List.replicate 32 0x4E, condition := .always, total := 4096 } [] ∧
      ([] : Bytes).length < 4096 :=
  ⟨atTake _, fun ⟨_, _, _, _, _, _, _, _, _, h, _⟩ => (nomatch h), atTake _,
    ⟨0, 0, 0x10, 0, 0, 0, 0, rfl, by decide, by decide, rfl, by decide, by decide, .inl ⟨rfl, rfl⟩⟩,
    by decide⟩

theorem putPasses : PutPasses (holding putFrame) 0 (putForm .always) :=
  ⟨nofun, by decide, trivial, by decide, by decide, by decide⟩

theorem test_witness_complete_put :
    AtTake (holding putFrame) putFrame [] ∧ IsPut putFrame.payload (putForm .always) [1, 2, 3, 4] ∧
      PutPasses (holding putFrame) 0 (putForm .always) ∧
      PlacesAtOnce (holding putFrame) 0 (recordSize 1 4) ∧
      AtTake (holdingIn openGroup putFrame) putFrame [] ∧
      PutPasses (holdingIn openGroup putFrame) 0 (putForm .always) ∧
      reserves (holdingIn openGroup putFrame) 0 [0x4E] = true ∧
      PlacesAtOnce (holdingIn openGroup putFrame) 0 (recordSize 1 4) :=
  ⟨atTake _, isPut, putPasses, places _ _ (by decide), atTakeIn _ _,
    ⟨nofun, by decide, trivial, by decide, by decide, by decide⟩, by decide,
    placesIn _ _ _ (by decide)⟩

/-- The small part with key 0x4E LIVE at version 7, with this frame to take. -/
def holdingLive (f : Frame) : State :=
  { holding f with dir := [{ entryK with key := [0x4E] }] }

/-- An OPEN group whose reservations, beside the two entries of the small part, leave no directory slot
free. -/
def crowdedGroup : Group := { openGroup with reserved := List.replicate 1022 (0, [0x41]) }

/-- A key limit of 0 on namespace 0. -/
def limited (f : Frame) : State :=
  { holding f with
    prot := { base.prot with settings := [{ id := 0x10, value := [0, 0], sn := 3, loc := nextLoc }] } }

theorem test_witness_put_refusals :
    AtTake (holdingReadOnly putFrame) putFrame [] ∧
      AtTake (holdingIn failedGroup putFrame) putFrame [] ∧
      (holdingIn failedGroup putFrame).log.device = .ready ∧
      (let s := { holding putFrame with prot := { base.prot with sessionLocks := 0x01 } }
      AtTake s putFrame [] ∧ writeLocked s 0 = true ∧ s.group.state ≠ .failed) ∧
      (let f := frame 0x08 (putPayload 1 0)
      AtTake (holdingLive f) f [] ∧ IsPut f.payload (putForm .ifAbsent) [1, 2, 3, 4] ∧
        effective (holdingLive f) 0 [0x4E] = .live 7 ∧ writeLocked (holdingLive f) 0 = false) ∧
      (let f := frame 0x08 (putPayload 2 6)
      AtTake (holding f) f [] ∧ IsPut f.payload (putForm (.ifVersion 6)) [1, 2, 3, 4] ∧
        effective (holding f) 0 [0x4E] = .absent ∧ AtTake (holdingLive f) f [] ∧
        effective (holdingLive f) 0 [0x4E] = .live 7 ∧ 6 ≠ 7) ∧
      AtTake (limited putFrame) putFrame [] ∧ newKey (limited putFrame) 0 [0x4E] = true ∧
      limitOf (limited putFrame) 0 ≤
        liveCount (limited putFrame).dir 0 + pendingNew (limited putFrame) 0 :=
  ⟨atTakeReadOnly _, atTakeIn _ _, rfl,
    ⟨⟨rfl, rfl, (by decide : DeviceState.ready ≠ .mounting), rfl, rfl, (by decide : 0 < 8), rfl⟩,
      by decide, nofun⟩,
    ⟨⟨rfl, rfl, (by decide : DeviceState.ready ≠ .mounting), rfl, rfl, (by decide : 0 < 8), rfl⟩,
      isPutIfAbsent, by decide, by decide⟩,
    ⟨atTake _, isPutIfVersion, by decide,
      ⟨rfl, rfl, (by decide : DeviceState.ready ≠ .mounting), rfl, rfl, (by decide : 0 < 8), rfl⟩,
      by decide, by decide⟩,
    ⟨rfl, rfl, (by decide : DeviceState.ready ≠ .mounting), rfl, rfl, (by decide : 0 < 8), rfl⟩,
    by decide, by decide⟩

theorem test_witness_put_refusals_of_a_group :
    AtTake (holdingIn crowdedGroup putFrame) putFrame [] ∧
      ConditionHolds .always (effective (holdingIn crowdedGroup putFrame) 0 [0x4E]) ∧
      1024 ≤ base.dir.length + crowdedGroup.reserved.length ∧
      AtTake (holdingIn fullGroup putFrame) putFrame [] ∧ fullGroup.state = .opened ∧
      base.dir.length + fullGroup.reserved.length < 1024 ∧ 32 ≤ fullGroup.list.length :=
  ⟨atTakeIn _ _, trivial,
    by rw [show crowdedGroup.reserved.length = 1022 from List.length_replicate ..]; decide,
    atTakeIn _ _, rfl, by decide,
    Nat.le_of_eq (show fullGroup.list.length = 32 from List.length_replicate ..).symm⟩

/-- The small part with this table and reclaim state, and the PUT to take. -/
def tight (table : List SegEntry) (state : ReclaimState) : State :=
  { holding putFrame with
    log := { base.log with segs := table }, reclaim := { base.reclaim with state := state } }

/-- A table with a full head, one ERASED segment and one FILLED segment with these bytes live. -/
def fullSegs (live : Nat) : List SegEntry :=
  [seg .opened (some 3) 1 16300 60, seg .erased none 3 0 0, seg .reclaiming (some 1) 1 16320 40,
    seg .filled (some 2) 1 16320 live]

/-- The small part's table with a full head. -/
def fullHead : List SegEntry := segs.modify 0 fun e => { e with used := 16300 }

theorem atTakeTight (table : List SegEntry) (state : ReclaimState) :
    AtTake (tight table state) putFrame [] :=
  ⟨rfl, rfl, (by decide : DeviceState.ready ≠ .mounting), rfl, rfl, (by decide : 0 < 8), rfl⟩

theorem tightPasses (table : List SegEntry) (state : ReclaimState) :
    PutPasses (tight table state) 0 (putForm .always) :=
  ⟨nofun, (by decide : writeLocked base 0 = false), trivial, fun _ => (by decide : 2 + 0 < 1024), fun _ => (by decide : 1 + 0 < 1024),
    fun h => absurd rfl h⟩

theorem test_witness_put_without_room :
    AtTake (tight (fullSegs 16292) .copying) putFrame [] ∧
      PutPasses (tight (fullSegs 16292) .copying) 0 (putForm .always) ∧
      fitsHead (fullSegs 16292) (recordSize 1 4) = false ∧ erasedCount (fullSegs 16292) ≤ 1 ∧
      recordSize 1 4 ≤ reclaimable (fullSegs 16292) ∧
      reclaimable (fullSegs 16293) < recordSize 1 4 ∧
      (tight (fullSegs 16293) .copying).replies.length < 7 ∧
      PutPasses (tight fullHead .idle) 0 (putForm .always) ∧
      fitsHead fullHead (recordSize 1 4) = false ∧ 2 ≤ erasedCount fullHead ∧
      chooseHead fullHead = some 2 ∧ chooseVictim segs = some 6 ∧ base.log.stamp ≠ 4294967295 :=
  ⟨atTakeTight _ _, tightPasses _ _, by decide, by decide, by decide, by decide, by decide,
    tightPasses _ _, by decide, by decide, by decide, by decide, by decide⟩

/-- An assembly of the PUT with two bytes received. -/
def halfPut : Assembly := { form := putForm .always, buffer := [1, 2], timerMs := 250 }

/-- The PUT assembling, with this frame to take. -/
def assembling (f : Frame) : State :=
  { holding f with engine := { engaged 0x08 .assembling with assembly := some halfPut } }

theorem atAssembling (f : Frame) : AtAssembling (assembling f) (requestOfKind 0x08) halfPut f [] :=
  ⟨rfl, rfl, (by decide : DeviceState.ready ≠ .mounting), rfl, rfl, rfl, rfl⟩

theorem test_witness_data :
    (let f := frame 0x09 [0x02, 0x00, 3]
    AtAssembling (assembling f) (requestOfKind 0x08) halfPut f [] ∧
      f.tag = (requestOfKind 0x08).tag ∧
      (0x02 : Byte).toNat + 256 * (0x00 : Byte).toNat = halfPut.buffer.length ∧
      halfPut.buffer.length + [(3 : Byte)].length < halfPut.form.total) ∧
    (let f := frame 0x09 [0x02, 0x00, 3, 4]
    AtAssembling (assembling f) (requestOfKind 0x08) halfPut f [] ∧
      halfPut.buffer.length + [(3 : Byte), 4].length = halfPut.form.total ∧
      PutPasses (assembling f) 0 halfPut.form ∧
      PlacesAtOnce (assembling f) 0 (recordSize 1 4)) ∧
    AtTake (holding (frame 0x09 [0x00])) (frame 0x09 [0x00]) [] ∧
    (let f := frame 0x09 [0x02, 0x00, 3, 4, 5]
    AtAssembling (assembling f) (requestOfKind 0x08) halfPut f [] ∧
      (assembling f).replies.length < 7 ∧ (assembling f).notices = [] ∧
      (assembling f).engine.breaking = none ∧
      halfPut.form.total < halfPut.buffer.length + [(3 : Byte), 4, 5].length ∧
      halfPut.buffer.length ≤ halfPut.form.total) :=
  ⟨⟨atAssembling _, rfl, by decide, by decide⟩,
    ⟨atAssembling _, by decide, ⟨nofun, by decide, trivial, by decide, by decide, by decide⟩,
      ⟨rfl, rfl, rfl, rfl, by decide, rfl, rfl, by decide⟩⟩,
    atTake _, ⟨atAssembling _, by decide, rfl, rfl, by decide, by decide⟩⟩

theorem test_witness_assembly_ends :
    (let f := frame 0x21 [0x81]
    AtAssembling (assembling f) (requestOfKind 0x08) halfPut f [] ∧
      (assembling f).replies.length < 7 ∧ (assembling f).notices = [] ∧
      AtAssembling { assembling f with replies := crowded.replies } (requestOfKind 0x08) halfPut f [] ∧
      8 ≤ crowded.replies.length ∧ (assembling f).engine.breaking = none ∧
      SlotOpen (assembling f)) ∧ base.engine.state ≠ .assembling :=
  ⟨⟨atAssembling _, by decide, rfl,
    ⟨rfl, rfl, (by decide : DeviceState.ready ≠ .mounting), rfl, rfl, rfl, rfl⟩, by decide, rfl,
    ⟨by decide, rfl⟩⟩, nofun⟩

/-- A DELETE of key 0x4B with this expected version. -/
def deleteFrame (expected : Byte) : Frame := frame 0x0C [0x01, expected, 0, 0, 0, 0x4B]

theorem isDelete (expected : Byte) :
    IsDelete (deleteFrame expected).payload [0x4B] (leNat [expected, 0, 0, 0]) :=
  ⟨expected, 0, 0, 0, rfl, by decide, by decide, rfl⟩

theorem test_witness_delete :
    AtTake (holding (frame 0x0C [])) (frame 0x0C []) [] ∧ (¬ ∃ key expected, IsDelete [] key expected) ∧
      (let f := deleteFrame 7
      AtTake (holding f) f [] ∧ IsDelete f.payload [0x4B] 7 ∧
        effective (holding f) 0 [0x4B] = .live 7 ∧ PlacesAtOnce (holding f) 0 (recordSize 1 0) ∧
        AtTake (holdingReadOnly f) f [] ∧ AtTake (holdingIn failedGroup f) f [] ∧
        AtTake (holdingIn fullGroup f) f [] ∧ 32 ≤ fullGroup.list.length ∧
        (∀ v, effective (holdingLive f) 0 [0x4B] ≠ .live v) ∧
        writeLocked (limited f) 0 = false) ∧
      (let f := deleteFrame 6
      AtTake (holding f) f [] ∧ IsDelete f.payload [0x4B] 6 ∧ 6 ≠ 0 ∧ 6 ≠ 7) :=
  ⟨atTake _, fun ⟨_, _, _, _, _, _, h, _⟩ => (nomatch h),
    ⟨atTake _, isDelete 7, by decide, places _ _ (by decide), atTakeReadOnly _, atTakeIn _ _,
      atTakeIn _ _, Nat.le_of_eq (show fullGroup.list.length = 32 from List.length_replicate ..).symm,
      nofun, by decide⟩,
    atTake _, isDelete 6, by decide, by decide⟩

theorem test_witness_get :
    AtTake (holding (frame 0x0A [])) (frame 0x0A []) [] ∧ (¬ ∃ key, IsKey [] key) ∧
      (let f := frame 0x0A [0x01, 0x4B]
      AtTake (holding f) f [] ∧ IsKey f.payload [0x4B] ∧
        lookup (holding f).dir 0 [0x4B] = some entryK ∧ entryK.state = .live 3 ∧
        (holding f).ctrl.cur = none ∧ (holding f).ctrl.queue = []) ∧
      (let f := frame 0x0A [0x01, 0x4C]
      IsKey f.payload [0x4C] ∧
        ∀ e, lookup (holding f).dir 0 [0x4C] = some e → e.state = .buried) :=
  ⟨atTake _, fun ⟨_, h, _⟩ => (nomatch h), ⟨atTake _, isKeyK, rfl, rfl, rfl, rfl⟩,
    ⟨rfl, by decide, by decide⟩, fun e h => by cases h; rfl⟩

/-- The array of the small part: this record at offset 64 of segment 0. -/
def holds (r : Record) : List ArraySeg :=
  [{ marks := Marks.blank, slots := [{ off := 64, size := r.size, record := some r }] }]

/-- A GET of key 0x4B streams this value, with this operation in progress and this much sent. -/
def streaming (op : ArrayOp) (value : Bytes) (sent : Nat) : State :=
  { doing op with
    array := holds (recordK value)
    engine := { engaged 0x0A .streaming with
      stream := some { streamK with length := value.length, sent := sent } } }

/-- A value of 241 bytes. -/
def longValue : Bytes := List.replicate 241 0x55

theorem test_witness_chunks :
    Running (streaming (.getFirstRead entryK.loc true) [1, 2, 3] 0) (.getFirstRead entryK.loc true) ∧
      SlotOpen (streaming (.getFirstRead entryK.loc true) [1, 2, 3] 0) ∧
      recordAt (streaming (.getFirstRead entryK.loc true) [1, 2, 3] 0) entryK.loc =
        some (recordK [1, 2, 3]) ∧
      recordAt (streaming (.getFirstRead entryK.loc true) longValue 0) entryK.loc =
        some (recordK longValue) ∧
      longValue.length = 241 ∧ (recordK longValue).value.length ≤ 4096 ∧
      Running (streaming (.chunkRead entryK.loc true) longValue 240) (.chunkRead entryK.loc true) ∧
      longValue.length - 240 ≤ 240 ∧
      recordAt (streaming (.chunkRead entryK.loc true) (longValue ++ longValue) 240) entryK.loc =
        some (recordK (longValue ++ longValue)) ∧
      240 < (longValue ++ longValue).length - 240 ∧ base.reclaim.state ≠ .pinWait ∧
      8 ≤ crowded.replies.length := by
  have h : longValue.length = 241 := List.length_replicate ..
  refine ⟨⟨rfl, rfl, rfl, rfl, rfl, rfl⟩, ⟨by decide, rfl⟩, rfl, rfl, h, ?_, ⟨rfl, rfl, rfl, rfl, rfl, rfl⟩, ?_,
    rfl, ?_, nofun, by decide⟩
  · exact Nat.le_trans (Nat.le_of_eq h) (by decide)
  · rw [h]; decide
  · rw [List.length_append, h]; decide

/-- A PUT that a LOCKDOWN with its tag has broken waits in REPLY_WAIT with its INCOMPLETE reply, over a full
reply queue. -/
def brokenPut : State :=
  { base with
    replies := crowded.replies
    engine := { engaged 0x08 .replyWait with
      decided := [{ kind := 0x88, tag := 0x12, status := .incomplete, payload := [] }]
      breaking := some (frame 0x21 [0x81]) } }

/-- A GET whose second chunk waits for a slot, with the next GET's read held back behind one unwanted. -/
def waitingChunk : State :=
  let s := streaming (.getFirstRead entryK.loc false) longValue 240
  { s with
    replies := crowded.replies
    engine := { s.engine with
      stream := some { streamK with length := 241, sent := 240, chunk := some [0x55] } } }

theorem test_witness_cancel_reaches :
    let rewriting := { base with
      engine := { engaged 0x19 .busy with
        job := some { purpose := .formatRewrite 9 0 [], record := recordN } } }
    (PortReady brokenPut ∧ brokenPut.engine.request = some (requestOfKind 0x08) ∧
      brokenPut.engine.state = .replyWait ∧ brokenPut.replies.length = 8) ∧
    (let s := { assembling (frame 0x01 []) with replies := crowded.replies }
    PortReady s ∧ s.engine.request = some (requestOfKind 0x08) ∧ s.engine.breaking = none ∧
      s.engine.state = .assembling) ∧
    (∀ s ∈ [streaming (.getFirstRead entryK.loc true) [1, 2, 3] 0,
        streaming (.chunkRead entryK.loc true) longValue 240, waitingChunk],
      PortReady s ∧ s.engine.request = some (requestOfKind 0x0A) ∧ s.engine.breaking = none ∧
        s.engine.state = .streaming ∧ s.engine.stream.isSome = true ∧ s.reclaim.state ≠ .pinWait) ∧
    ((engaged 0x18 .busy).state = .busy ∧ (requestOfKind 0x18).kind = 0x18) ∧
    (PortReady (putting .waitingSpace none) ∧ (putting .waitingSpace none).log.grant = none ∧
      (putting .waitingSpace none).engine.job = some jobN ∧ (requestOfKind 0x08).kind ≠ 0x18 ∧
      ∀ marker done left, jobN.purpose ≠ .formatRewrite marker done left) ∧
    (putting .busy (some (grantN (.programming nextLoc)))).log.grant =
      some (grantN (.programming nextLoc)) ∧
    (putting .busy (some (grantN (.opening 2)))).log.grant = some (grantN (.opening 2)) ∧
    (putting .busy (some { grantN .choosing with claimant := .reclaim })).log.grant =
      some { grantN .choosing with claimant := .reclaim } ∧
    rewriting.engine.job = some { purpose := .formatRewrite 9 0 [], record := recordN } := by
  refine ⟨⟨⟨rfl, rfl, rfl⟩, rfl, rfl, rfl⟩, ⟨⟨rfl, rfl, rfl⟩, rfl, rfl, rfl⟩, ?_, ⟨rfl, rfl⟩,
    ⟨⟨rfl, rfl, rfl⟩, rfl, rfl, by decide, nofun⟩, rfl, rfl, rfl, rfl⟩
  simp only [List.forall_mem_cons, List.not_mem_nil, false_imp_iff, implies_true, and_true]
  exact ⟨⟨⟨rfl, rfl, rfl⟩, rfl, rfl, rfl, rfl, nofun⟩, ⟨⟨rfl, rfl, rfl⟩, rfl, rfl, rfl, rfl, nofun⟩,
    ⟨rfl, rfl, rfl⟩, rfl, rfl, rfl, rfl, nofun⟩

/-! ## Witnesses: programs and marks outside mount -/

/-- The program of this job's record `r` is in progress, as a first attempt or a retry. -/
def programming (kind : Byte) (purpose : Purpose) (r : Record) (retry : Bool) : State :=
  { doing (.programRecord nextLoc r) with
    engine := { engaged kind .busy with job := some { purpose := purpose, record := r } }
    log := { base.log with
      grant := some { grantN (.programming nextLoc) with record := r, retry := retry } } }

theorem isProgramming (kind : Byte) (purpose : Purpose) (r : Record) (retry : Bool) :
    Programming (programming kind purpose r retry) { purpose := purpose, record := r }
      (requestOfKind kind) r nextLoc :=
  ⟨⟨rfl, rfl, rfl, rfl, rfl, rfl⟩, ⟨(by decide : 0 < 8), rfl⟩, rfl, rfl, rfl, _, rfl, rfl, rfl⟩

theorem programmingQuiet (kind : Byte) (purpose : Purpose) (r : Record) (dir : List Entry)
    (h : buriedTotal dir < 64) : NothingDue (programming kind purpose r false) dir :=
  ⟨rfl, rfl, rfl, rfl, rfl, (by decide : 4 ≤ erasedCount segs), h⟩

/-- The TOMBSTONE record of key 0x4B. -/
def tombstoneK : Record :=
  { kind := .tombstone, ns := 0, tagged := false, key := [0x4B], value := [], sn := 9 }

theorem test_witness_completions :
    Programming (programming 0x08 (.put false) recordN false) { purpose := .put false, record := recordN } (requestOfKind 0x08) recordN
        nextLoc ∧
      recordN.tagged = false ∧ (requestOfKind 0x08).kind = 0x08 ∧
      NothingDue (programming 0x08 (.put false) recordN false)
        (dirPut base.dir
          { ns := 0, key := [0x4E], state := .live 4, version := 9, loc := nextLoc }) ∧
      Programming (programming 0x0C .delete tombstoneK false)
        { purpose := .delete, record := tombstoneK } (requestOfKind 0x0C) tombstoneK nextLoc ∧
      NothingDue (programming 0x0C .delete tombstoneK false)
        (dirPut base.dir
          { ns := 0, key := [0x4B], state := .buried, version := 9, loc := nextLoc }) :=
  ⟨isProgramming .., rfl, rfl, programmingQuiet _ _ _ _ (by decide), isProgramming ..,
    programmingQuiet _ _ _ _ (by decide)⟩

/-- The COMMIT marker of the group. -/
def markerRecord : Record :=
  { kind := .commit, ns := 0, tagged := false, key := [], value := [9, 0, 0, 0], sn := 11 }

/-- A group with two PUTs of key 0x4D staged, the first SUPERSEDED, and a DELETE of key 0x4B. -/
def staged (state : GroupState) : Group :=
  { openGroup with
    state := state
    list :=
      [{ pendingM with standing := .superseded }, { pendingM with sn := 10, loc := { seg := 0, off := 188 } },
        { pendingM with
          isPut := false, key := [0x4B], sn := 11, loc := { seg := 0, off := 212 }, length := 0 }]
    reserved := [(0, [0x4D])] }

/-- The copy of the group's PUT of key 0x4D, its read outstanding. -/
def copyM : Copy := Copy.of .group 0 [0x4D] 10 { seg := 0, off := 188 } 24

/-- The group's COMMIT marker is being programmed, with a copy of its PUT in hand. -/
def committing (state : GroupState) (device : DeviceState) : State :=
  let s := programming 0x11 .commit markerRecord false
  { s with
    group := staged state, reclaim := { s.reclaim with copy := some copyM }
    log := { s.log with device := device } }

theorem committingIs (state : GroupState) (device : DeviceState) :
    Programming (committing state device) { purpose := .commit, record := markerRecord }
      (requestOfKind 0x11) markerRecord nextLoc :=
  ⟨⟨rfl, rfl, rfl, rfl, rfl, rfl⟩, ⟨(by decide : 0 < 8), rfl⟩, rfl, rfl, rfl, _, rfl, rfl, rfl⟩

/-- The directory after the group's commit. -/
def committedDir : List Entry :=
  [{ ns := 0, key := [0x4B], state := .buried, version := 11, loc := { seg := 0, off := 212 } }, entryL,
    { ns := 0, key := [0x4D], state := .live 2, version := 10, loc := { seg := 0, off := 188 } }]

theorem test_witness_staged :
    let r := { recordN with tagged := true }
    let s := { programming 0x08 (.put true) r false with group := openGroup }
    Programming s { purpose := .put true, record := r } (requestOfKind 0x08) r nextLoc ∧
      NothingDue s s.dir :=
  ⟨⟨⟨rfl, rfl, rfl, rfl, rfl, rfl⟩, ⟨(by decide : 0 < 8), rfl⟩, rfl, rfl, rfl, _, rfl, rfl, rfl⟩,
    ⟨rfl, rfl, rfl, rfl, rfl, (by decide : 4 ≤ erasedCount segs), by decide⟩⟩

theorem test_witness_committed :
    Programming (committing .opened .ready) { purpose := .commit, record := markerRecord }
        (requestOfKind 0x11) markerRecord nextLoc ∧
      Programming (committing .failed .readOnly) { purpose := .commit, record := markerRecord }
        (requestOfKind 0x11) markerRecord nextLoc ∧
      (∀ p ∈ (staged .opened).list, p.standing ≠ .lost) ∧
      (∃ t, exec (.recordProgramDone true) (committing .opened .ready) = .next t ∧ t.dir = committedDir) ∧
      NothingDue (committing .opened .ready) committedDir ∧
      NothingDue (committing .failed .readOnly) committedDir :=
  ⟨committingIs .., committingIs .., by decide, ⟨_, rfl, by decide⟩,
    ⟨rfl, rfl, rfl, rfl, rfl, (by decide : 4 ≤ erasedCount segs), by decide⟩,
    ⟨rfl, rfl, rfl, rfl, rfl, (by decide : 4 ≤ erasedCount segs), by decide⟩⟩

theorem test_witness_capacity :
    let s := { committing .opened .ready with pending := [.recordProgramDone true] }
    DirInv s ∧ s.dir.length + s.group.reserved.length ≤ 1024 ∧ SlotsHeld s ∧ s.mount = none ∧
      ∃ t, step s = .next t ∧ t.dir.length = 3 := by
  refine ⟨⟨show List.Pairwise _ [entryK, entryL] from by decide, nofun⟩, by decide, ⟨?_, ?_⟩, rfl, _, rfl,
    by decide⟩
  · intro loc r g j _ _ hj hp
    cases hj
    rcases hp with h | ⟨_, h⟩ <;> cases h
  · intro loc r g j _ _ _ _
    show ∀ p ∈ (staged .opened).list, _
    decide

theorem test_witness_capacity_of_a_put :
    let s := { programming 0x08 (.put false) recordN false with pending := [.recordProgramDone true] }
    SlotsHeld s ∧ lookup s.dir 0 [0x4E] = none ∧ recordN.tagged = false ∧
      ∃ t, step s = .next t ∧ t.dir.length = 3 := by
  refine ⟨⟨?_, ?_⟩, rfl, rfl, _, rfl, by decide⟩
  · intro loc r g j _ hg _ _ _ _
    exact (by decide : 2 + 0 < 1024)
  · intro loc r g j _ _ hj hp
    cases hj
    cases hp

theorem test_witness_segment_table :
    let s := { programming 0x08 (.put false) recordN false with pending := [.recordProgramDone true] }
    SegInv s ∧ LiveWithinUsed s.log.segs ∧ ClaimFits s ∧
      ∃ t, step s = .next t ∧ (segAt t.log.segs 0).live = 88 := by
  refine ⟨⟨⟨by decide, by decide⟩, ?_, nofun, ?_, nofun, nofun, ?_, ?_, nofun, nofun⟩,
    (by decide : ∀ e ∈ segs, e.live ≤ e.used), ⟨?_, ?_, ?_, ?_, nofun⟩, _, rfl, by decide⟩
  · intro j hj
    cases hj
    exact ⟨by decide, by decide⟩
  · intro g hg
    cases hg
    exact ⟨by decide, by decide⟩
  · intro a ha t ht
    rw [(List.mem_replicate.1 ha).2] at ht
    cases ht
  · intro loc r h
    cases List.mem_singleton.1 h
    exact ⟨by decide, by decide⟩
  · intro loc r g hc hg _
    cases hc
    cases hg
    decide
  · intro loc r g j _ _ hj hp
    cases hj
    rcases hp with h | ⟨_, _, _, h⟩ <;> cases h
  · intro j hj hp
    cases hj
    cases hp
  · intro loc r g c _ hg hk
    cases hg
    cases hk

/-- The SYSTEM record of this setting, with its SN. -/
def storedRecord (id : Byte) (value : Bytes) : Record := { systemRecord id value with sn := 9 }

theorem settingProgramming (kind id : Byte) (value : Bytes) :
    let s := programming kind .setting (storedRecord id value) false
    Programming s { purpose := .setting, record := storedRecord id value } (requestOfKind kind)
        (storedRecord id value) nextLoc ∧ NothingDue s s.dir :=
  ⟨isProgramming .., programmingQuiet _ _ _ _ (by decide : buriedTotal base.dir < 64)⟩

theorem test_witness_settings_take_effect :
    (let s := programming 0x1A .setting (storedRecord 0x17 [0x00, 0x04]) false
    Programming s { purpose := .setting, record := storedRecord 0x17 [0x00, 0x04] }
        (requestOfKind 0x1A) (storedRecord 0x17 [0x00, 0x04]) nextLoc ∧
      NothingDue s s.dir ∧ (storedRecord 0x17 [0x00, 0x04]).key = [0x17] ∧
      (0x17 : Byte) = 0x10 + BitVec.ofNat 8 7) ∧
    (requestOfKind 0x22).kind = 0x22 ∧ (storedRecord 0x01 [0x81]).key = [0x01] ∧
    (requestOfKind 0x25).kind = 0x25 ∧ (storedRecord 0x21 []).key = [0x21] ∧
    (requestOfKind 0x26).kind = 0x26 ∧ (storedRecord 0x20 [0x02]).key = [0x20] ∧
    (requestOfKind 0x27).kind = 0x27 ∧ (storedRecord 0x22 [0x03]).key = [0x22] ∧
    (storedRecord 0x22 [0x03]).value = [0x03] :=
  ⟨⟨(settingProgramming 0x1A 0x17 [0x00, 0x04]).1, (settingProgramming 0x1A 0x17 [0x00, 0x04]).2, rfl,
      by decide⟩, rfl, rfl, rfl, rfl, rfl, rfl, rfl, rfl, rfl⟩

/-- The FORMAT marker. -/
def formatRecord : Record :=
  { kind := .format, ns := 0, tagged := false, key := [], value := [], sn := 9 }

/-- A stored key limit. -/
def storedLimit : Setting := { id := 0x10, value := [0, 4], sn := 3, loc := { seg := 6, off := 64 } }

theorem test_witness_format_clears :
    (let s := programming 0x19 .formatMarker formatRecord false
    Programming s { purpose := .formatMarker, record := formatRecord } (requestOfKind 0x19) formatRecord
        nextLoc ∧ NothingDue s [] ∧ s.prot.settings = []) ∧
    (let s := { programming 0x19 .formatMarker formatRecord false with
      prot := { base.prot with settings := [storedLimit] } }
    s.prot.settings = storedLimit :: [] ∧
      PlacesAtOnce
        { s with
          array := written nextLoc formatRecord s.array, ctrl := s.ctrl.rest, dir := []
          log := { s.log with grant := none, segs := segs } } 0 (recordSize 1 2)) ∧
    (let r := storedRecord 0x10 [0, 4]
    let s := programming 0x19 (.formatRewrite 9 0 []) r false
    Programming s { purpose := .formatRewrite 9 0 [], record := r } (requestOfKind 0x19) r nextLoc ∧
      r.key = [0x10] ∧ NothingDue s s.dir) :=
  ⟨⟨isProgramming .., programmingQuiet _ _ _ _ (by decide), rfl⟩,
    ⟨rfl, ⟨rfl, rfl, rfl, rfl, by decide, rfl, rfl, (by decide : 9 + 1 ≠ 4294967295)⟩⟩,
    isProgramming .., rfl, programmingQuiet _ _ _ _ (by decide : buriedTotal base.dir < 64)⟩

theorem test_witness_failed_program :
    (let s := programming 0x08 (.put false) recordN false
    Programming s { purpose := .put false, record := recordN } (requestOfKind 0x08) recordN nextLoc ∧
      s.log.grant = some (grantN (.programming nextLoc)) ∧ s.log.device = .ready ∧
      s.log.engineWaits = false ∧ s.log.copyWaits = false ∧
      (grantN (.programming nextLoc)).retry = false ∧ 2 ≤ erasedCount segs ∧
      s.log.stamp ≠ 4294967295 ∧ chooseHead segs = some 2) ∧
    (let s := programming 0x08 (.put false) recordN true
    Programming s { purpose := .put false, record := recordN } (requestOfKind 0x08) recordN nextLoc ∧
      s.log.grant = some { grantN (.programming nextLoc) with retry := true }) ∧
    erasedCount (fullSegs 0) ≤ 1 :=
  ⟨⟨isProgramming .., rfl, rfl, rfl, rfl, rfl, by decide, by decide, by decide⟩, ⟨isProgramming .., rfl⟩,
    by decide⟩

/-- The OPENED mark of segment 2 is being programmed for the PUT, withdrawn or not. -/
def openingHead (abandoned : Bool) : State :=
  { doing (.openedMark 2 3) with
    engine := { engaged 0x08 .busy with job := some jobN }
    log := { base.log with grant := some { grantN (.opening 2) with abandoned := abandoned } } }

theorem test_witness_head_marks :
    Running (openingHead false) (.openedMark 2 3) ∧
      (openingHead false).log.grant = some (grantN (.opening 2)) ∧
      headOf (openingHead false).log.segs = some 0 ∧ 2 < (openingHead false).log.segs.length ∧
      (openingHead false).log.device = .ready ∧ (openingHead false).log.sn + 1 ≠ 4294967295 ∧
      Running (openingHead true) (.openedMark 2 3) ∧ SlotOpen (openingHead true) ∧
      (let table := segs.modify 2 fun e =>
        { e with state := .retired, stamp := none, used := 0, live := 0, pin := false }
      NothingDue
        { openingHead true with
          array := marked 2 .opened .failed base.array
          log := { base.log with segs := table, grant := none }
          ctrl := { base.ctrl with cur := some (.retiredMark 2) } } base.dir) ∧
      Running (doing (.filledMark 0)) (.filledMark 0) ∧
      Running (doing (.retiredMark 63)) (.retiredMark 63) :=
  ⟨⟨rfl, rfl, rfl, rfl, rfl, rfl⟩, rfl, by decide, by decide, rfl, by decide, ⟨rfl, rfl, rfl, rfl, rfl, rfl⟩,
    ⟨(by decide : 0 < 8), rfl⟩, ⟨rfl, rfl, rfl, rfl, rfl, by decide, by decide⟩, runningDoing _,
    runningDoing _⟩

/-- The OPENED mark of this segment of this table is being programmed for the PUT. -/
def openingIn (table : List SegEntry) (v : Nat) (retry : Bool) : State :=
  { doing (.openedMark v 3) with
    engine := { engaged 0x08 .busy with job := some jobN }
    log := { base.log with
      segs := table, grant := some { grantN (.opening v) with retry := retry } } }

/-- The RETIRED mark after a failed OPENED mark is being programmed, and the next OPENED mark held back. -/
def heldMark : State :=
  { base with
    ctrl := { base.ctrl with cur := some (.retiredMark 2 .logManager), held := [.openedMark 4 4] } }

theorem test_witness_failed_opened_mark :
    (let s := openingIn fullHead 2 false
    let table := retired 2 fullHead
    Running s (.openedMark 2 3) ∧ s.log.grant = some (grantN (.opening 2)) ∧ SlotOpen s ∧
      s.engine.job = some jobN ∧ jobN.purpose ≠ .commit ∧ s.log.device = .ready ∧
      NothingDue
        { s with
          array := marked 2 .opened .failed s.array
          log := { s.log with segs := table, grant := none }
          ctrl := { s.ctrl with cur := some (.retiredMark 2 .logManager) } } s.dir ∧
      fitsHead table jobN.record.size = false ∧ s.log.stamp ≠ 4294967295 ∧
      chooseHead table = some 4) ∧
    (let s := openingIn (fullSegs 0) 1 false
    Running s (.openedMark 1 3) ∧ SlotOpen s ∧ s.engine.job = some jobN ∧
      s.engine.request = some (requestOfKind 0x08) ∧ s.engine.breaking = none ∧
      s.log.device = .ready ∧ s.log.copyWaits = false ∧ inUse (retired 1 (fullSegs 0)) < 4 ∧
      s.replies.length < 6 ∧ (openingIn (fullSegs 0) 1 true).log.grant =
        some { grantN (.opening 1) with retry := true }) ∧
    heldMark.powered = true ∧ heldMark.rst = false ∧
      heldMark.ctrl.cur = some (.retiredMark 2 .logManager) ∧ heldMark.ctrl.queue = [] ∧
      heldMark.ctrl.held = [.openedMark 4 4] ∧ heldMark.ctrl.paused = none :=
  ⟨⟨⟨rfl, rfl, rfl, rfl, rfl, rfl⟩, rfl, ⟨(by decide : 0 < 8), rfl⟩, rfl, nofun, rfl,
      ⟨rfl, rfl, rfl, rfl, rfl, by decide, by decide⟩, by decide, by decide, by decide⟩,
    ⟨⟨rfl, rfl, rfl, rfl, rfl, rfl⟩, ⟨(by decide : 0 < 8), rfl⟩, rfl, rfl, rfl, rfl, rfl, by decide,
      (by decide : 0 < 6), rfl⟩, rfl, rfl, rfl, rfl, rfl, rfl⟩

/-! ## Witnesses: the reclaim pass -/

/-- Key 0x4B lies in segment 6, at this offset. -/
def entryIn6 (off : Nat) : Entry := { entryK with loc := { seg := 6, off := off } }

/-- A pass over segment 6 in this state, over this directory, with this operation in progress. -/
def passing (state : ReclaimState) (op : ArrayOp) (dir : List Entry) : State :=
  { doing op with
    dir := dir
    reclaim := { base.reclaim with state := state, victim := some 6 }
    log := { base.log with segs := segs.modify 6 fun e => { e with state := .reclaiming } } }

theorem runningPassing (state : ReclaimState) (op : ArrayOp) (dir : List Entry) :
    Running (passing state op dir) op := ⟨rfl, rfl, rfl, rfl, rfl, rfl⟩

/-- The walk's copy of key 0x4B from offset 64 of segment 6. -/
def copyK : Copy := Copy.of .directory 0 [0x4B] 7 { seg := 6, off := 64 } 24

theorem test_witness_walk :
    lowestNamed 6 64 (passing .copying (.reclaimMark 6) [entryIn6 64]) = some copyK ∧
      lowestNamed 6 65 (passing .copying (.reclaimMark 6) [entryIn6 64]) = none ∧
      Running (passing .copying (.reclaimMark 6) [entryIn6 64]) (.reclaimMark 6) ∧
      (passing .copying (.reclaimMark 6) []).reclaim.victim = some 6 ∧
      (passing .copying (.reclaimMark 6) []).reclaim.position = 64 ∧
      (passing .copying (.reclaimMark 6) []).reclaim.copy = none ∧
      lowestNamed 6 64 (passing .copying (.reclaimMark 6) []) = none ∧
      (segAt (passing .copying (.reclaimMark 6) []).log.segs 6).pin = false ∧
      (segAt (passing .copying (.reclaimMark 6) []).log.segs 6).suspect = false ∧
      (segAt (segs.modify 6 fun e => { e with pin := true }) 6).pin = true :=
  ⟨by decide, by decide, runningPassing .., rfl, rfl, rfl, by decide, by decide, by decide, by decide⟩

/-- The copy has been read and placed. -/
def placedCopy : Copy :=
  { copyK with buffer := some (recordK [1, 2, 3]), placed := some nextLoc }

/-- The grant over the placed copy. -/
def copyGrant : Grant :=
  { claimant := .reclaim, record := recordK [1, 2, 3], retry := false
    stage := .programming nextLoc, abandoned := false }

/-- The copy's read is in progress, over an array that holds its record in segment 6. -/
def readingCopy : State :=
  let s := passing .copying (.copyRead copyK.loc) [entryIn6 64]
  { s with
    array := List.replicate 6 ArraySeg.blank ++ holds (recordK [1, 2, 3])
    reclaim := { s.reclaim with copy := some copyK, position := 88 } }

/-- The copy's program is in progress, with two more records of segment 6 in the directory. -/
def writingCopy : State :=
  let s := passing .copying (.programRecord nextLoc copyGrant.record)
    [entryIn6 64, { entryIn6 88 with key := [0x4C] }]
  { s with
    reclaim := { s.reclaim with copy := some placedCopy, position := 88 }
    log := { s.log with grant := some copyGrant } }

theorem test_witness_copy :
    Running readingCopy (.copyRead copyK.loc) ∧ readingCopy.reclaim.copy = some copyK ∧
      copyK.dropped = false ∧ recordAt readingCopy copyK.loc = some (recordK [1, 2, 3]) ∧
      readingCopy.log.device = .ready ∧ readingCopy.log.grant = none ∧
      headOf readingCopy.log.segs = some 0 ∧ (segAt readingCopy.log.segs 0).suspect = false ∧
      (segAt readingCopy.log.segs 0).used + (recordK [1, 2, 3]).size ≤ 16320 ∧
      Running writingCopy (.programRecord nextLoc copyGrant.record) ∧
      writingCopy.log.grant = some copyGrant ∧ copyGrant.claimant = .reclaim ∧
      writingCopy.reclaim.copy = some placedCopy ∧ placedCopy.owner = .directory ∧
      writingCopy.reclaim.victim = some 6 ∧ 4 ≤ erasedCount writingCopy.log.segs ∧
      buriedTotal writingCopy.dir < 64 ∧
      lookup writingCopy.dir 0 [0x4B] = some (entryIn6 64) ∧ (entryIn6 64).version = placedCopy.sn ∧
      lowestNamed 6 88 writingCopy =
        some (Copy.of .directory 0 [0x4C] 7 { seg := 6, off := 88 } 24) :=
  ⟨⟨rfl, rfl, rfl, rfl, rfl, rfl⟩, rfl, rfl, rfl, rfl, rfl, by decide, by decide, by decide,
    ⟨rfl, rfl, rfl, rfl, rfl, rfl⟩, rfl, rfl, rfl, rfl, rfl, by decide, by decide, by decide, rfl,
    by decide⟩

theorem test_witness_lost :
    (let s := { readingCopy with dir := [entryIn6 64, { entryIn6 88 with key := [0x4C] }] }
    Running s (.copyRead copyK.loc) ∧ SlotOpen s ∧ s.reclaim.copy = some copyK ∧
      copyK.owner = .directory ∧ lookup s.dir 0 [0x4B] = some (entryIn6 64) ∧
      (entryIn6 64).state = .live 3 ∧ (entryIn6 64).version = copyK.sn ∧
      (entryIn6 64).loc = copyK.loc ∧
      lowestNamed 6 88 { s with dir := [{ entryIn6 88 with key := [0x4C] }] } =
        some (Copy.of .directory 0 [0x4C] 7 { seg := 6, off := 88 } 24)) ∧
    (let s := streaming (.getFirstRead entryK.loc true) [1, 2, 3] 0
    Running s (.getFirstRead entryK.loc true) ∧ s.replies.length < 7 ∧ s.notices = [] ∧
      s.engine.breaking = none ∧ s.reclaim.state ≠ .pinWait ∧
      lookup s.dir 0 [0x4B] = some entryK ∧ entryK.version = streamK.version) :=
  ⟨⟨⟨rfl, rfl, rfl, rfl, rfl, rfl⟩, ⟨(by decide : 0 < 8), rfl⟩, rfl, rfl, by decide, rfl, rfl, rfl,
      by decide⟩,
    ⟨rfl, rfl, rfl, rfl, rfl, rfl⟩, (by decide : 0 < 7), rfl, rfl, nofun, rfl, rfl⟩

/-- A table with a full head, no ERASED segment, and segment 6 RECLAIMING. -/
def noErased : List SegEntry :=
  [seg .opened (some 3) 1 16300 60, seg .filled (some 4) 3 16320 0, seg .filled (some 5) 2 16320 0,
    seg .filled (some 6) 2 16320 0, seg .filled (some 7) 2 16320 0, seg .filled (some 8) 2 16320 0,
    seg .reclaiming (some 1) 1 16320 40]

theorem test_witness_unplaceable_copy :
    let s := { readingCopy with
      log := { readingCopy.log with segs := noErased }, group := openGroup }
    Running s (.copyRead copyK.loc) ∧ s.reclaim.copy = some copyK ∧ copyK.dropped = false ∧
      recordAt s copyK.loc = some (recordK [1, 2, 3]) ∧ s.log.device = .ready ∧ s.log.grant = none ∧
      fitsHead s.log.segs (recordK [1, 2, 3]).size = false ∧ erasedCount s.log.segs = 0 ∧
      s.engine.state = .idle ∧ s.log.engineWaits = false ∧ SlotOpen s :=
  ⟨⟨rfl, rfl, rfl, rfl, rfl, rfl⟩, rfl, rfl, rfl, rfl, rfl, by decide, by decide, rfl, rfl,
    (by decide : 0 < 8), rfl⟩

/-- A staged PUT of key 0x4D, and a stored key limit, at offset 64 of segment 6. -/
def stagedIn6 : Pending := { pendingM with loc := { seg := 6, off := 64 } }
def limitIn6 : Setting := { id := 0x10, value := [0, 4], sn := 3, loc := { seg := 6, off := 64 } }

/-- The copies of these two. -/
def copyOfStaged : Copy := Copy.of .group 0 [0x4D] 9 { seg := 6, off := 64 } 24
def copyOfLimit : Copy := Copy.of .settings 0 [0x10] 3 { seg := 6, off := 64 } 24

/-- The record of the walk's next copy. -/
def nextCopy : Copy := Copy.of .directory 0 [0x4C] 7 { seg := 6, off := 88 } 24

/-- The program, or the read, of a copy of the pending list or the settings table is in progress. -/
def owned (state : State) (c : Copy) (list : List Pending) (settings : List Setting) : State :=
  { state with
    dir := [{ entryIn6 88 with key := [0x4C] }]
    group := { openGroup with list := list }
    prot := { state.prot with settings := settings }
    reclaim := { state.reclaim with copy := some c, position := 88 } }

theorem runningWriting (c : Copy) (list : List Pending) (settings : List Setting) :
    Running (owned writingCopy c list settings) (.programRecord nextLoc copyGrant.record) :=
  ⟨rfl, rfl, rfl, rfl, rfl, rfl⟩

theorem runningReading (c : Copy) (list : List Pending) (settings : List Setting) :
    Running (owned readingCopy c list settings) (.copyRead { seg := 6, off := 64 }) :=
  ⟨rfl, rfl, rfl, rfl, rfl, rfl⟩

theorem test_witness_copies_of_other_owners :
    (∀ s ∈ [owned writingCopy copyOfStaged [stagedIn6] [], owned writingCopy copyOfStaged [] [],
        owned writingCopy copyOfLimit [] [limitIn6], owned writingCopy copyOfLimit [] []],
      Running s (.programRecord nextLoc copyGrant.record) ∧ s.log.grant = some copyGrant ∧
        s.reclaim.victim = some 6 ∧ s.reclaim.state = .copying ∧ s.log.engineWaits = false ∧
        s.log.copyWaits = false ∧ s.reclaim.background = false ∧ 4 ≤ erasedCount s.log.segs ∧
        buriedTotal s.dir < 64 ∧ lowestNamed 6 88 s = some nextCopy) ∧
    (∀ s ∈ [owned readingCopy copyOfStaged [stagedIn6] [], owned readingCopy copyOfStaged [] [],
        owned readingCopy copyOfLimit [] [limitIn6]],
      Running s (.copyRead { seg := 6, off := 64 }) ∧ SlotOpen s ∧ s.reclaim.victim = some 6 ∧
        s.log.device = .ready ∧ s.log.grant = none ∧ headOf s.log.segs = some 0 ∧
        (segAt s.log.segs 0).suspect = false ∧ (segAt s.log.segs 0).used + 24 ≤ 16320 ∧
        lowestNamed 6 88 s = some nextCopy) ∧
    stagedIn6.standing = .current ∧ stagedIn6.key = copyOfStaged.key ∧ stagedIn6.sn = copyOfStaged.sn ∧
    stagedIn6.loc = copyOfStaged.loc ∧ settingOf [limitIn6] 0x10 = some limitIn6 ∧
    limitIn6.sn = copyOfLimit.sn ∧ limitIn6.loc = copyOfLimit.loc := by
  refine ⟨?_, ?_, rfl, rfl, rfl, rfl, rfl, rfl, rfl⟩
  · simp only [List.forall_mem_cons, List.not_mem_nil, false_imp_iff, implies_true, and_true]
    exact
      ⟨⟨runningWriting .., rfl, rfl, rfl, rfl, rfl, rfl, by decide, by decide, by decide⟩,
        ⟨runningWriting .., rfl, rfl, rfl, rfl, rfl, rfl, by decide, by decide, by decide⟩,
        ⟨runningWriting .., rfl, rfl, rfl, rfl, rfl, rfl, by decide, by decide, by decide⟩,
        runningWriting .., rfl, rfl, rfl, rfl, rfl, rfl, by decide, by decide, by decide⟩
  · simp only [List.forall_mem_cons, List.not_mem_nil, false_imp_iff, implies_true, and_true]
    exact
      ⟨⟨runningReading .., ⟨(by decide : 0 < 8), rfl⟩, rfl, rfl, rfl, by decide, by decide, by decide,
          by decide⟩,
        ⟨runningReading .., ⟨(by decide : 0 < 8), rfl⟩, rfl, rfl, rfl, by decide, by decide, by decide,
          by decide⟩,
        runningReading .., ⟨(by decide : 0 < 8), rfl⟩, rfl, rfl, rfl, by decide, by decide, by decide,
        by decide⟩

/-- The table after the end of the pass over segment 6, with its entry as these updates leave it. -/
def afterPass (f : SegEntry → SegEntry) : List SegEntry := segs.modify 6 f

theorem test_witness_victim :
    Running (passing .erasing (.eraseMark 6) []) (.eraseMark 6) ∧
      Running (passing .erasing (.erase 6) []) (.erase 6) ∧
      Running (passing .erasing (.erasedMark 6 2) [entryL]) (.erasedMark 6 2) ∧
      (passing .erasing (.erasedMark 6 2) [entryL]).engine.state = .idle ∧
      (passing .erasing (.erasedMark 6 2) [entryL]).engine.job = none ∧
      ([entryL].filter fun e => e.isLive || decide (e.loc.seg ≠ 6)) = [] ∧
      NothingDue
        { passing .idle (.retiredMark 6) [] with
          log := { base.log with segs := afterPass fun e => { e with state := .erased } } } [] :=
  ⟨runningPassing .., runningPassing .., runningPassing .., rfl, rfl, by decide,
    ⟨rfl, rfl, rfl, rfl, rfl, by decide, by decide⟩⟩

/-- The pass over segment 6, which is suspect, at its RECLAIM mark. -/
def suspectVictim : State :=
  let s := passing .copying (.reclaimMark 6) [entryL]
  { s with log := { s.log with segs := s.log.segs.modify 6 fun e => { e with suspect := true } } }

theorem test_witness_retired_victim :
    (∀ op ∈ [ArrayOp.eraseMark 6, .erase 6, .erasedMark 6 2],
      let s := passing .erasing op [entryL]
      Running s op ∧ SlotOpen s ∧ s.engine.state = .idle ∧ s.engine.job = none ∧
        NothingDue (victimRetired 6 .markFailure s) [] ∧ (victimRetired 6 .markFailure s).dir = []) ∧
    (∀ s ∈ [suspectVictim, passing .copying (.reclaimMark 6) [entryL]],
      Running s (.reclaimMark 6) ∧ SlotOpen s ∧ s.engine.state = .idle ∧ s.engine.job = none ∧
        s.reclaim.victim = some 6 ∧ s.reclaim.state = .copying ∧ s.reclaim.copy = none ∧
        lowestNamed 6 s.reclaim.position s = none ∧ (segAt s.log.segs 6).pin = false ∧
        NothingDue (victimRetired 6 .suspect s) (victimRetired 6 .suspect s).dir) ∧
    (segAt suspectVictim.log.segs 6).suspect = true ∧
    6 < (passing .copying (.reclaimMark 6) [entryL]).log.segs.length := by
  refine ⟨?_, ?_, by decide, by decide⟩
  · simp only [List.forall_mem_cons, List.not_mem_nil, false_imp_iff, implies_true, and_true]
    exact
      ⟨⟨runningPassing .., ⟨(by decide : 0 < 8), rfl⟩, rfl, rfl,
          ⟨rfl, rfl, rfl, rfl, rfl, by decide, by decide⟩, by decide⟩,
        ⟨runningPassing .., ⟨(by decide : 0 < 8), rfl⟩, rfl, rfl,
          ⟨rfl, rfl, rfl, rfl, rfl, by decide, by decide⟩, by decide⟩,
        runningPassing .., ⟨(by decide : 0 < 8), rfl⟩, rfl, rfl,
        ⟨rfl, rfl, rfl, rfl, rfl, by decide, by decide⟩, by decide⟩
  · simp only [List.forall_mem_cons, List.not_mem_nil, false_imp_iff, implies_true, and_true]
    exact
      ⟨⟨⟨rfl, rfl, rfl, rfl, rfl, rfl⟩, ⟨(by decide : 0 < 8), rfl⟩, rfl, rfl, rfl, rfl, rfl, by decide,
          by decide, ⟨rfl, rfl, rfl, rfl, rfl, by decide, by decide⟩⟩,
        runningPassing .., ⟨(by decide : 0 < 8), rfl⟩, rfl, rfl, rfl, rfl, rfl, by decide, by decide,
        ⟨rfl, rfl, rfl, rfl, rfl, by decide, by decide⟩⟩

/-- The ERASE mark of segment 2, one of four in use, is being programmed, with this engine at work. -/
def lastVictim (engine : Engine) (foreground : Bool) : State :=
  { doing (.eraseMark 2) with
    engine := engine
    reclaim := { base.reclaim with state := .erasing, victim := some 2, foreground := foreground }
    log := { base.log with segs := fullSegs 0 } }

theorem test_witness_retirement_enters_read_only :
    (let s := lastVictim base.engine false
    Running s (.eraseMark 2) ∧ s.replies.length < 6 ∧ s.notices = [] ∧ s.log.device = .ready ∧
      s.log.grant = none ∧ s.log.copyWaits = false ∧ inUse (retired 2 s.log.segs) < 4 ∧
      s.engine.state = .idle ∧ s.engine.job = none ∧ s.log.engineWaits = false ∧
      s.reclaim.foreground = false) ∧
    (let s := lastVictim { engaged 0x08 .waitingSpace with job := some jobN } true
    Running s (.eraseMark 2) ∧ s.engine.state = .waitingSpace ∧ s.engine.job = some jobN ∧
      s.engine.request = some (requestOfKind 0x08) ∧ s.engine.breaking = none) ∧
    ∀ marker done left, jobN.purpose ≠ .formatRewrite marker done left :=
  ⟨⟨⟨rfl, rfl, rfl, rfl, rfl, rfl⟩, (by decide : 0 < 6), rfl, rfl, rfl, rfl, by decide, rfl, rfl, rfl, rfl⟩,
    ⟨⟨rfl, rfl, rfl, rfl, rfl, rfl⟩, rfl, rfl, rfl, rfl⟩, nofun⟩

/-- The erase of segment 6 runs, paused this often so far, and a GET waits. -/
def erasing (pauses : Nat) : State :=
  { passing .erasing (.erase 6) base.dir with
    inbound := [frame 0x0A [0x01, 0x4B]]
    ctrl := { base.ctrl with cur := some (.erase 6), pauseCount := pauses } }

theorem test_witness_pauses :
    AtTake (erasing 15) (frame 0x0A [0x01, 0x4B]) [] ∧ IsKey [0x01, 0x4B] [0x4B] ∧
      lookup (erasing 15).dir 0 [0x4B] = some entryK ∧ (erasing 15).ctrl.cur = some (.erase 6) ∧
      (erasing 15).ctrl.pauseCount < 16 ∧ AtTake (erasing 16) (frame 0x0A [0x01, 0x4B]) [] ∧
      16 ≤ (erasing 16).ctrl.pauseCount :=
  ⟨⟨rfl, rfl, (by decide : DeviceState.ready ≠ .mounting), rfl, rfl, (by decide : 0 < 8), rfl⟩, isKeyK,
    rfl, rfl, by decide,
    ⟨rfl, rfl, (by decide : DeviceState.ready ≠ .mounting), rfl, rfl, (by decide : 0 < 8), rfl⟩,
    by decide⟩

/-! ## Witnesses: mount -/

/-- Mount at this phase, with this operation in progress. -/
def mountAt (phase : MountPhase) (op : ArrayOp) : State :=
  { State.reset with
    mount := some { Mount.start with phase := phase, segs := segs }
    ctrl := { State.reset.ctrl with cur := some op } }

theorem runningMount (phase : MountPhase) (op : ArrayOp) : Running (mountAt phase op) op :=
  ⟨rfl, rfl, rfl, rfl, rfl, rfl⟩

/-- A VALUE record at offset 64 of segment 0, and a torn one behind it. -/
def heldArray : List ArraySeg :=
  [{ marks := Marks.blank
     slots :=
       [{ off := 64, size := 24, record := some (recordK [1, 2, 3]) },
         { off := 88, size := 24, record := none }] }]

theorem test_witness_mount_reads :
    Running (mountAt (.descriptor 0) .mountRead) .mountRead ∧ 62 + 1 < 64 ∧
      ({ Marks.blank with retired := .valid 0 } : Marks).retired = .valid 0 ∧
      ({ Marks.blank with erase := .failed } : Marks).retired = .blank ∧
      ({ Marks.blank with erase := .failed } : Marks).erase ≠ .blank ∧
      Running (mountAt (.walk [0, 1] 64) .mountRead) .mountRead ∧ 16383 < 16384 ∧
      (heldArray.getD 0 ArraySeg.blank).slots.find? (fun t => t.off = 64) =
        some { off := 64, size := 24, record := some (recordK [1, 2, 3]) } ∧
      (heldArray.getD 0 ArraySeg.blank).slots.find? (fun t => t.off = 88) =
        some { off := 88, size := 24, record := none } ∧
      (∀ t ∈ (heldArray.getD 0 ArraySeg.blank).slots, t.off < 112) ∧
      Running (mountAt (.scan [{ seg := 0, off := 88 }, { seg := 63, off := 64 }]) .mountRead)
        .mountRead :=
  ⟨runningMount .., by decide, rfl, rfl, nofun, runningMount .., by decide, by decide, by decide,
    by decide, runningMount ..⟩

/-- A record whose key is too long, and one that runs over the segment's end. -/
def outOfBounds : List Slot :=
  [{ off := 64, size := 56, record := some { recordK [] with key := List.replicate 33 0x4B } },
    { off := 16364, size := 24, record := some (recordK [1, 2, 3]) }]

theorem test_witness_walk_meets_records_out_of_bounds :
    (outOfBounds.find? fun t => t.off = 64) =
        some { off := 64, size := 56, record := some { recordK [] with key := List.replicate 33 0x4B } } ∧
      32 < ({ recordK [] with key := List.replicate 33 0x4B } : Record).key.length ∧
      (outOfBounds.find? fun t => t.off = 16364) =
        some { off := 16364, size := 24, record := some (recordK [1, 2, 3]) } ∧
      16384 < 16364 + (recordK [1, 2, 3]).size := by decide

/-- Mount with its last read in progress: of a region, over these descriptors. -/
def lastScan (reads : List SegRead) : Mount :=
  { Mount.start with phase := .scan [{ seg := 0, off := 64 }], reads := reads }

/-- A descriptor as mount read it, of this class and open stamp. -/
def readOf (cls : SegClass) (stamp : Option Nat) : SegRead :=
  { cls := cls, eraseCount := some 1, stamp := stamp }

theorem test_witness_mount_rebuilds :
    Running (mountAt (.scan [{ seg := 0, off := 64 }]) .mountRead) .mountRead ∧
      (let reads := [readOf .opened (some 1), readOf .opened (some 2)]
      toClose (lastScan reads).rebuild = 0 :: [1]) ∧
      (let reads := [readOf .unknown none, readOf .erased none]
      toClose (lastScan reads).rebuild = [] ∧
        (indicesOf (lastScan reads).rebuild.reads fun c => decide (c = .unknown)) = 0 :: []) ∧
      (let reads := [readOf .erased none, readOf .erased none, readOf .erased none, readOf .erased none]
      toClose (lastScan reads).rebuild = [] ∧
        (indicesOf (lastScan reads).rebuild.reads fun c => decide (c = .unknown)) = [] ∧
        headToOpen (lastScan reads).rebuild = some 0) ∧
      headToOpen (lastScan [readOf .erased none]).rebuild = none ∧
      (let m := { Mount.start with phase := .walk [0] 112, reads := [readOf .filled (some 1)] }
      (∀ t ∈ (heldArray.getD 0 ArraySeg.blank).slots, t.off < 112) ∧
        scanRegions { m with ends := m.ends ++ [{ seg := 0, off := 112, stop := .erasedSpace }] } = []) :=
  ⟨runningMount .., by decide, by decide, by decide, by decide, by decide, by decide⟩

/-- Two records of one name, found by mount in segment 0. -/
def foundTwice : Mount :=
  { Mount.start with
    found :=
      [{ loc := { seg := 0, off := 64 }, record := recordK [1] },
        { loc := { seg := 0, off := 88 }, record := { recordK [2] with sn := 8 } }] }

theorem test_witness_newest :
    (∀ f ∈ foundTwice.found, stands foundTwice.found f.record = true) ∧
      (nameRecords foundTwice.reads foundTwice.found).length ≤ 1024 ∧
      (nameRecords foundTwice.reads foundTwice.found).map (fun f => f.record.sn) = [8] := by decide

theorem test_witness_mount_settles :
    Running (mountAt (.close [0, 7]) (.mountFilledMark 0)) (.mountFilledMark 0) ∧
      Running (mountAt (.reErase [0, 7]) (.mountErase 0)) (.mountErase 0) ∧
      Running (mountAt (.reErase [0, 7]) (.mountErasedMark 0 4294967295)) (.mountErasedMark 0 4294967295) ∧
      Running (mountAt (.reErase [0, 7]) (.mountRetiredMark 0)) (.mountRetiredMark 0) ∧
      Running (mountAt (.openHead 7) (.mountOpenedMark 7 4)) (.mountOpenedMark 7 4) ∧
      7 < segs.length :=
  ⟨runningMount .., runningMount .., runningMount .., runningMount .., runningMount .., by decide⟩

/-- Mount has only its end left, with this SN counter. -/
def mountFinished (sn : Nat) : Mount := { Mount.start with phase := .finished, segs := segs, sn := sn }

/-- The part at the end of mount. -/
def endingMount (sn : Nat) : State :=
  { State.reset with
    mount := some (mountFinished sn), ctrl := { State.reset.ctrl with cur := none } }

theorem test_witness_mount_end :
    (endingMount 9).mount = some (mountFinished 9) ∧ (mountFinished 9).phase = .finished ∧
      SlotOpen (endingMount 9) ∧ (∀ e ∈ (mountFinished 9).segs, e.state ≠ .reclaiming) ∧
      headOf (mountFinished 9).segs ≠ none ∧ (mountFinished 9).sn ≠ 4294967295 ∧
      NothingDue { endingMount 9 with log := { base.log with segs := segs } } (mountFinished 9).dir ∧
      (mountFinished 4294967295).sn = 4294967295 :=
  ⟨rfl, rfl, ⟨(by decide : 0 < 8), rfl⟩, by decide, by decide, by decide,
    ⟨rfl, rfl, rfl, rfl, rfl, by decide, by decide⟩, rfl⟩

/-- The small part's table with segment 6 RECLAIMING. -/
def reclaimingSegs : List SegEntry := segs.modify 6 fun e => { e with state := .reclaiming }

/-- The part at the end of mount, with a pass to resume, over this directory. -/
def resuming (dir : List Entry) (sn : Nat) : State :=
  { endingMount sn with mount := some { mountFinished sn with segs := reclaimingSegs, dir := dir } }

theorem test_witness_mount_end_resumes :
    let m := { mountFinished 9 with segs := reclaimingSegs, dir := [entryIn6 64] }
    let s := resuming [entryIn6 64] 9
    s.powered = true ∧ s.rst = false ∧ s.mount = some m ∧ m.phase = .finished ∧ MountingInv s ∧
      s.ctrl.cur = none ∧ reclaimingSeg m.segs = some 6 ∧ 4 ≤ inUse m.segs ∧
      (segAt m.segs 6).pin = false ∧ (segAt m.segs 6).suspect = false ∧ m.sn ≠ 4294967295 ∧
      headOf m.segs ≠ none ∧ lowestNamed 6 64 { base with dir := [entryIn6 64] } = some copyK ∧
      lowestNamed 6 64 { base with dir := [] } = none ∧
      (resuming [entryIn6 64] 4294967295).mount = some { m with sn := 4294967295 } :=
  ⟨rfl, rfl, rfl, rfl,
    ⟨rfl, rfl, rfl, rfl, rfl, rfl, rfl, rfl, rfl, rfl, rfl, rfl, nofun⟩,
    rfl, by decide, by decide, by decide, by decide, by decide, by decide, by decide, by decide, rfl⟩

/-! ## Witnesses: what waits for a slot, a pin or a grant -/

/-- A GET's stream over a full reply queue with a chunk in hand, this many bytes of it sent, and nothing at
the array controller. -/
def chunkHeld (length sent : Nat) : State :=
  { waitingChunk with
    ctrl := base.ctrl
    engine := { waitingChunk.engine with
      stream := some { streamK with length := length, sent := sent, chunk := some [0x55] } } }

/-- A pass waits in PIN_WAIT for the pin of segment 6, from which a GET of key 0x4B streams this value, with
this much sent and this operation in progress. The pass has moved the key's record. -/
def pinWaiting (cur : Option ArrayOp) (value : Bytes) (sent : Nat) (suspect : Bool) : State :=
  { base with
    array := List.replicate 6 ArraySeg.blank ++ holds (recordK value)
    log := { base.log with
      segs := segs.modify 6 fun e =>
        { e with state := .reclaiming, suspect := suspect, pin := true } }
    reclaim := { base.reclaim with state := .pinWait, victim := some 6 }
    engine := { engaged 0x0A .streaming with
      stream := some
        { streamK with loc := { seg := 6, off := 64 }, length := value.length, sent := sent } }
    ctrl := { base.ctrl with cur := cur } }

/-- The same with its last chunk waiting for a slot. -/
def pinnedChunk : State :=
  let s := pinWaiting none longValue 240 false
  { s with
    replies := crowded.replies
    engine := { s.engine with
      stream := some
        { streamK with loc := { seg := 6, off := 64 }, length := 241, sent := 240, chunk := some [0x55] } } }

theorem test_witness_freed_slot :
    (let s := { crowded with engine := base.engine }
    PortReady s ∧ s.notices = [.readOnly .retirement 3 9] ∧ s.engine.state ≠ .replyWait) ∧
    (∀ s ∈ [{ crowded with engine := base.engine }, chunkHeld 600 240, chunkHeld 480 240, pinnedChunk,
        brokenPut],
      s.replies = reply 0 :: [reply 1, reply 2, reply 3, reply 4, reply 5, reply 6, reply 7]) ∧
    (∀ s ∈ [chunkHeld 600 240, chunkHeld 480 240, pinnedChunk],
      PortReady s ∧ s.notices = [] ∧ s.engine.state = .streaming ∧
        s.engine.request = some (requestOfKind 0x0A) ∧ s.ctrl.cur = none ∧ s.ctrl.queue = []) ∧
    240 < 600 - 240 ∧ 480 - 240 ≤ 240 ∧ base.reclaim.state ≠ .pinWait ∧
    (pinnedChunk.reclaim.state = .pinWait ∧ pinnedChunk.reclaim.victim = some 6 ∧
      (segAt pinnedChunk.log.segs 6).suspect = false ∧ pinnedChunk.ctrl.paused = none) ∧
    PortReady brokenPut ∧ brokenPut.notices = [] ∧ brokenPut.engine.state = .replyWait ∧
    brokenPut.engine.decided =
      [{ kind := 0x88, tag := 0x12, status := .incomplete, payload := [] }] ∧
    brokenPut.engine.breaking = some (frame 0x21 [0x81]) := by
  refine ⟨⟨⟨rfl, rfl, rfl⟩, rfl, nofun⟩, ?_, ?_, by decide, by decide, nofun,
    ⟨rfl, rfl, by decide, rfl⟩, ⟨rfl, rfl, rfl⟩, rfl, rfl, rfl, rfl⟩
  · simp only [List.forall_mem_cons, List.not_mem_nil, false_imp_iff, implies_true, and_true]
    exact ⟨rfl, rfl, rfl, rfl, rfl⟩
  · simp only [List.forall_mem_cons, List.not_mem_nil, false_imp_iff, implies_true, and_true]
    exact ⟨⟨⟨rfl, rfl, rfl⟩, rfl, rfl, rfl, rfl, rfl⟩, ⟨⟨rfl, rfl, rfl⟩, rfl, rfl, rfl, rfl, rfl⟩,
      ⟨rfl, rfl, rfl⟩, rfl, rfl, rfl, rfl, rfl⟩

theorem test_witness_cancel_in_pin_wait :
    (∀ s ∈ [pinnedChunk,
        pinWaiting (some (.chunkRead { seg := 6, off := 64 } true)) longValue 240 false],
      PortReady s ∧ s.engine.request = some (requestOfKind 0x0A) ∧ s.engine.breaking = none ∧
        s.engine.state = .streaming ∧ s.engine.stream.map (fun t => t.loc.seg) = some 6 ∧
        s.reclaim.state = .pinWait ∧ s.reclaim.victim = some 6 ∧
        (segAt s.log.segs 6).suspect = false ∧ s.ctrl.queue = [] ∧ s.ctrl.paused = none) ∧
    pinnedChunk.ctrl.cur = none ∧
    ArrayOp.requester (.chunkRead { seg := 6, off := 64 } true) = .engine := by
  refine ⟨?_, rfl, rfl⟩
  simp only [List.forall_mem_cons, List.not_mem_nil, false_imp_iff, implies_true, and_true]
  exact ⟨⟨⟨rfl, rfl, rfl⟩, rfl, rfl, rfl, rfl, rfl, rfl, by decide, rfl, rfl⟩,
    ⟨rfl, rfl, rfl⟩, rfl, rfl, rfl, rfl, rfl, rfl, by decide, rfl, rfl⟩

/-- The last chunk of the stream that the pass waits for has been read. -/
def lastChunkRead (first suspect : Bool) : State :=
  if first then
    pinWaiting (some (.getFirstRead { seg := 6, off := 64 } true)) [1, 2, 3] 0 suspect
  else pinWaiting (some (.chunkRead { seg := 6, off := 64 } true)) longValue 240 suspect

/-- The stream over, with its last chunk queued and the pin released. -/
def streamOver (s : State) (out : Out) : State :=
  replied out
    { s with
      ctrl := s.ctrl.rest
      engine := s.engine.toIdle
      log := { s.log with segs := s.log.segs.modify 6 fun e => { e with pin := false } } }

theorem test_witness_last_chunk_in_pin_wait :
    (∀ suspect,
      Running (lastChunkRead true suspect) (.getFirstRead { seg := 6, off := 64 } true) ∧
        Running (lastChunkRead false suspect) (.chunkRead { seg := 6, off := 64 } true) ∧
        recordAt (lastChunkRead true suspect) { seg := 6, off := 64 } = some (recordK [1, 2, 3]) ∧
        recordAt (lastChunkRead false suspect) { seg := 6, off := 64 } = some (recordK longValue) ∧
        ∀ first, SlotOpen (lastChunkRead first suspect) ∧
          (lastChunkRead first suspect).engine.request = some (requestOfKind 0x0A) ∧
          (lastChunkRead first suspect).reclaim.state = .pinWait ∧
          (lastChunkRead first suspect).reclaim.victim = some 6 ∧
          (segAt (lastChunkRead first suspect).log.segs 6).suspect = suspect ∧
          (lastChunkRead first suspect).replies.length < 7) ∧
      (recordK longValue).value.length = 241 ∧
      ∀ first out, NothingDue (victimRetired 6 .suspect (streamOver (lastChunkRead first true) out))
        (victimRetired 6 .suspect (streamOver (lastChunkRead first true) out)).dir := by
  refine ⟨fun suspect => ⟨⟨rfl, rfl, rfl, rfl, rfl, rfl⟩, ⟨rfl, rfl, rfl, rfl, rfl, rfl⟩, rfl, rfl,
    fun first => ?_⟩, List.length_replicate .., fun first out => ?_⟩
  · cases first <;> cases suspect <;>
      exact ⟨⟨(by decide : 0 < 8), rfl⟩, rfl, rfl, rfl, by decide, (by decide : 0 < 7)⟩
  · have erased : 4 ≤ erasedCount (retired 6
        ((lastChunkRead first true).log.segs.modify 6 fun e => { e with pin := false })) := by
      cases first <;> decide
    have buried : buriedTotal (base.dir.filter fun e => e.isLive || decide (e.loc.seg ≠ 6)) < 64 := by
      decide
    cases first <;> exact ⟨rfl, rfl, rfl, rfl, rfl, erased, buried⟩

theorem test_witness_lost_in_pin_wait :
    let s := lastChunkRead true false
    s.engine.breaking = none ∧
      ∀ e, lookup s.dir 0 [0x4B] = some e → e.loc ≠ { seg := 6, off := 64 } :=
  ⟨rfl, fun e h => by cases h; decide⟩

/-- A DISCARD is taken while a copy of the group's staged PUT waits, read, for the append point, with this
grant and this operation in progress. -/
def copyAwaits (grant : Option Grant) (op : ArrayOp) : State :=
  { holdingIn { openGroup with list := [stagedIn6] } (frame 0x12 []) with
    dir := [{ entryIn6 88 with key := [0x4C] }]
    log := { (passing .copying op []).log with grant := grant, copyWaits := grant.isNone }
    reclaim := { base.reclaim with
      state := .copying, victim := some 6, position := 88
      copy := some { copyOfStaged with buffer := some (recordK [1, 2]) } }
    ctrl := { base.ctrl with cur := some op } }

theorem test_witness_discarded_copy :
    ∀ grant ∈ [none, some { copyGrant with stage := .opening 2 }],
    ∀ op ∈ [ArrayOp.filledMark 7, .openedMark 2 4],
      let s := copyAwaits grant op
      AtTake s (frame 0x12 []) [] ∧ s.group.state ≠ .noGroup ∧
        s.reclaim.copy = some { copyOfStaged with buffer := some (recordK [1, 2]) } ∧
        copyOfStaged.owner = .group ∧ copyOfStaged.placed = none ∧ s.reclaim.victim = some 6 ∧
        (∀ g, s.log.grant = some g → g.claimant = .reclaim ∧ g.stage = .opening 2) ∧
        s.ctrl.cur = some op ∧ op.requester = .logManager ∧ s.ctrl.queue = [] ∧ s.ctrl.paused = none ∧
        lowestNamed 6 88 { s with group := State.reset.group } = some nextCopy := by
  intro grant hg op ho
  have h : AtTake (copyAwaits grant op) (frame 0x12 []) [] :=
    ⟨rfl, rfl, (by decide : DeviceState.ready ≠ .mounting), rfl, rfl, (by decide : 0 < 8), rfl⟩
  refine ⟨h, nofun, rfl, rfl, rfl, rfl, ?_, rfl, ?_, rfl, rfl,
    (by decide : lowestNamed 6 88 { base with dir := [{ entryIn6 88 with key := [0x4C] }] } = some nextCopy)⟩
  · intro g h
    simp only [List.mem_cons, List.not_mem_nil, or_false] at hg
    rcases hg with rfl | rfl
    · cases h
    · cases h; exact ⟨rfl, rfl⟩
  · simp only [List.mem_cons, List.not_mem_nil, or_false] at ho
    rcases ho with rfl | rfl <;> rfl

theorem test_witness_declined_relocation :
    let moved := { entryK with version := 9, loc := { seg := 0, off := 188 } }
    let s := { writingCopy with dir := [moved, { entryIn6 88 with key := [0x4C] }] }
    Running s (.programRecord nextLoc copyGrant.record) ∧ s.log.grant = some copyGrant ∧
      s.reclaim.copy = some placedCopy ∧ placedCopy.owner = .directory ∧
      lookup s.dir 0 [0x4B] = some moved ∧ moved.version ≠ placedCopy.sn ∧ moved.loc ≠ placedCopy.loc ∧
      4 ≤ erasedCount s.log.segs ∧ buriedTotal s.dir < 64 ∧ lowestNamed 6 88 s = some nextCopy :=
  ⟨⟨rfl, rfl, rfl, rfl, rfl, rfl⟩, rfl, rfl, rfl, rfl, by decide, by decide, by decide, by decide,
    by decide⟩

/-! ## Witnesses: what is due behind a completion -/

theorem test_witness_need_starts_a_pass :
    let s := tight (fullSegs 16292) .idle
    AtTake s putFrame [] ∧ PutPasses s 0 (putForm .always) ∧ s.log.grant = none ∧
      s.reclaim.state = .idle ∧ NextVictim s.log.segs 3 ∧ s.ctrl.cur = none ∧ s.ctrl.queue = [] ∧
      s.ctrl.paused = none :=
  ⟨atTakeTight _ _, tightPasses _ _, rfl, rfl, ⟨by decide, by decide⟩, rfl, rfl, rfl⟩

/-- The PUT's program, with the reclaim unit in this state, a copy waiting or not, and this table. -/
def settling (state : ReclaimState) (waits : Bool) (table : List SegEntry) : State :=
  let s := programming 0x08 (.put false) recordN false
  { s with
    log := { s.log with segs := table, copyWaits := waits }
    reclaim := { s.reclaim with
      state := state, victim := some 6
      copy := if waits then some { copyK with buffer := some (recordK [1, 2, 3]) } else none } }

theorem settlingIs (state : ReclaimState) (waits : Bool) (table : List SegEntry) :
    Programming (settling state waits table) { purpose := .put false, record := recordN }
      (requestOfKind 0x08) recordN nextLoc :=
  ⟨⟨rfl, rfl, rfl, rfl, rfl, rfl⟩, ⟨(by decide : 0 < 8), rfl⟩, rfl, rfl, rfl, _, rfl, rfl, rfl⟩

/-- The small part's table with three ERASED segments left. -/
def fewErased : List SegEntry :=
  segs.zipIdx.map fun x =>
    if x.2 = 1 ∨ x.2 = 3 then seg .filled (some (x.2 + 10)) 3 16320 0 else x.1

theorem test_witness_settles :
    Programming (settling .copying false segs) { purpose := .put false, record := recordN }
        (requestOfKind 0x08) recordN nextLoc ∧
      (settling .copying false segs).reclaim.state ≠ .idle ∧
      (settling .idle false fewErased).log.device = .ready ∧
      erasedCount fewErased = 3 ∧ flagAfterTest false (livened 0 28 fewErased) base.dir = true ∧
      NextVictim (livened 0 28 fewErased) 6 ∧
      (let s := settling .copying true segs
      s.log.copyWaits = true ∧ s.reclaim.state ≠ .idle ∧ s.log.device = .ready ∧
        s.reclaim.copy = some { copyK with buffer := some (recordK [1, 2, 3]) } ∧
        headOf (livened 0 28 segs) = some 0 ∧ (segAt (livened 0 28 segs) 0).suspect = false ∧
        (segAt (livened 0 28 segs) 0).used + (recordK [1, 2, 3]).size ≤ 16320) :=
  ⟨settlingIs .., nofun, rfl, by decide, by decide, ⟨by decide, by decide⟩,
    ⟨rfl, nofun, rfl, rfl, by decide, by decide, by decide⟩⟩

/-- The OPENED mark of this segment of this table is being programmed for a record that was withdrawn, and
both claimants wait. -/
def bothWait (table : List SegEntry) (v : Nat) : State :=
  let s := openingIn table v false
  { s with
    log := { s.log with
      grant := some { grantN (.opening v) with abandoned := true }
      engineWaits := true, copyWaits := true }
    reclaim := { s.reclaim with copy := some { copyK with buffer := some (recordK [1, 2, 3]) } } }

/-- A table once segment `v` is its new head. -/
def headIs (h v : Nat) (table : List SegEntry) : List SegEntry :=
  (table.modify h fun e => { e with state := .filled, used := 16320 }).modify v fun e =>
    { e with
      state := .opened, stamp := some 3, used := 0, live := 0, suspect := false, pin := false
      reclaimMarked := false }

theorem test_witness_arbiter :
    (∀ x ∈ [(segs, 2), (fullSegs 0, 1)],
      let s := bothWait x.1 x.2
      Running s (.openedMark x.2 3) ∧
        s.log.grant = some { grantN (.opening x.2) with abandoned := true } ∧
        headOf s.log.segs = some 0 ∧ 0 ≠ x.2 ∧ x.2 < s.log.segs.length ∧ s.log.device = .ready ∧
        s.log.engineWaits = true ∧ s.log.copyWaits = true ∧ s.engine.job = some jobN ∧
        s.engine.assembly = none ∧
        s.reclaim.copy = some { copyK with buffer := some (recordK [1, 2, 3]) } ∧
        s.log.sn + 1 ≠ 4294967295 ∧ headOf (headIs 0 x.2 x.1) = some x.2) ∧
    jobN.purpose ≠ .commit ∧ jobN.record.size ≤ 16320 ∧ (recordK [1, 2, 3]).size ≤ 16320 ∧
    2 ≤ erasedCount (headIs 0 2 segs) ∧ erasedCount (headIs 0 1 (fullSegs 0)) ≤ 1 := by
  refine ⟨?_, nofun, by decide, by decide, by decide, by decide⟩
  simp only [List.forall_mem_cons, List.not_mem_nil, false_imp_iff, implies_true, and_true]
  exact
    ⟨⟨⟨rfl, rfl, rfl, rfl, rfl, rfl⟩, rfl, by decide, by decide, by decide, rfl, rfl, rfl, rfl, rfl, rfl,
        by decide, by decide⟩,
      ⟨rfl, rfl, rfl, rfl, rfl, rfl⟩, rfl, by decide, by decide, by decide, rfl, rfl, rfl, rfl, rfl, rfl,
      by decide, by decide⟩

/-- The ERASED mark of segment `v` is being programmed, and the PUT waits for space. -/
def reexamined (table : List SegEntry) (v : Nat) (foreground : Bool) : State :=
  { doing (.erasedMark v 2) with
    engine := { engaged 0x08 .waitingSpace with job := some jobN }
    reclaim := { base.reclaim with
      state := .erasing, victim := some v, foreground := foreground }
    log := { base.log with segs := table } }

/-- The table with segment `v` back in the pool. -/
def pooled (table : List SegEntry) (v : Nat) : List SegEntry :=
  table.modify v fun e =>
    { e with
      state := .erased, stamp := none, eraseCount := 2, used := 0, live := 0
      suspect := false, pin := false, reclaimMarked := false }

/-- A table with a full head, no ERASED segment, and one FILLED segment with these bytes live. -/
def scarce (live : Nat) : List SegEntry :=
  [seg .opened (some 3) 1 16300 60, seg .erasing (some 1) 1 16320 0, seg .filled (some 2) 1 16320 live]

theorem test_witness_reexamined :
    (∀ s ∈ [reexamined (segs.modify 6 fun e => { e with state := .erasing }) 6 true,
        reexamined (fullHead.modify 6 fun e => { e with state := .erasing }) 6 true,
        reexamined (scarce 0) 1 true, reexamined (scarce 16320) 1 true],
      s.powered = true ∧ s.rst = false ∧ s.ctrl.queue = [] ∧ s.engine.state = .waitingSpace ∧
        s.engine.job = some jobN ∧ s.engine.request = some (requestOfKind 0x08) ∧
        s.engine.breaking = none ∧ s.engine.assembly = none ∧ s.log.engineWaits = false ∧
        s.log.copyWaits = false ∧ s.log.grant = none ∧ s.log.device = .ready ∧
        s.reclaim.tidyRemaining = 0 ∧ s.replies.length < 7 ∧ s.notices = []) ∧
    (requestOfKind 0x08).kind ≠ 0x18 ∧ jobN.purpose ≠ .commit ∧ jobN.purpose = .put false ∧
    PlacesAtOnce
      { reexamined segs 6 false with log := { base.log with segs := pooled segs 6 }, ctrl := base.ctrl } 0
      jobN.record.size ∧
    flagAfterTest false (pooled segs 6) base.dir = false ∧
    (fitsHead (pooled fullHead 6) jobN.record.size = false ∧ 2 ≤ erasedCount (pooled fullHead 6) ∧
      base.log.stamp ≠ 4294967295 ∧ chooseHead (pooled fullHead 6) = some 2) ∧
    (fitsHead (pooled (scarce 0) 1) jobN.record.size = false ∧ erasedCount (pooled (scarce 0) 1) ≤ 1 ∧
      jobN.record.size ≤ reclaimable (pooled (scarce 0) 1) ∧ NextVictim (pooled (scarce 0) 1) 2) ∧
    (fitsHead (pooled (scarce 16320) 1) jobN.record.size = false ∧
      erasedCount (pooled (scarce 16320) 1) ≤ 1 ∧
      reclaimable (pooled (scarce 16320) 1) < jobN.record.size ∧
      flagAfterTest false (pooled (scarce 16320) 1) base.dir = false) := by
  refine ⟨?_, by decide, nofun, rfl, ⟨rfl, rfl, by decide, by decide, by decide, rfl, rfl, by decide⟩,
    by decide, ⟨by decide, by decide, by decide, by decide⟩,
    ⟨by decide, by decide, by decide, by decide, by decide⟩, by decide, by decide, by decide, by decide⟩
  simp only [List.forall_mem_cons, List.not_mem_nil, false_imp_iff, implies_true, and_true]
  exact
    ⟨⟨rfl, rfl, rfl, rfl, rfl, rfl, rfl, rfl, rfl, rfl, rfl, rfl, rfl, (by decide : 0 < 7), rfl⟩,
      ⟨rfl, rfl, rfl, rfl, rfl, rfl, rfl, rfl, rfl, rfl, rfl, rfl, rfl, (by decide : 0 < 7), rfl⟩,
      ⟨rfl, rfl, rfl, rfl, rfl, rfl, rfl, rfl, rfl, rfl, rfl, rfl, rfl, (by decide : 0 < 7), rfl⟩,
      rfl, rfl, rfl, rfl, rfl, rfl, rfl, rfl, rfl, rfl, rfl, rfl, rfl, (by decide : 0 < 7), rfl⟩

/-- The erase of segment 6 stands paused behind this operation and these. -/
def pausedBehind (op : ArrayOp) (queue : List ArrayOp) : State :=
  { passing .erasePaused op base.dir with
    ctrl := { base.ctrl with cur := some op, queue := queue, paused := some 6, pauseCount := 1 } }

theorem test_witness_paused_erase :
    (∀ op ∈ [ArrayOp.filledMark 7, .getFirstRead entryK.loc false, .chunkRead entryK.loc false],
      ∀ queue, let s := pausedBehind op queue
      s.powered = true ∧ s.rst = false ∧ s.ctrl.paused = some 6 ∧ s.ctrl.held = [] ∧
        s.ctrl.cur = some op ∧ s.ctrl.queue = queue) ∧
    ∀ v, ArrayOp.getFirstRead entryK.loc true ≠ .erase v :=
  ⟨fun _ _ _ => ⟨rfl, rfl, rfl, rfl, rfl, rfl⟩, nofun⟩

/-- The group's COMMIT marker is being programmed while a copy of its PUT waits, read, for the append
point. -/
def committingAhead : State :=
  let s := committing .opened .ready
  { s with
    log := { s.log with copyWaits := true }
    reclaim := { s.reclaim with
      state := .copying, victim := some 6
      copy := some { copyM with buffer := some { recordN with tagged := true } } } }

theorem test_witness_committed_ahead_of_a_copy :
    let s := committingAhead
    let table := (applyPending s.group.list s).log.segs
    Programming s { purpose := .commit, record := markerRecord } (requestOfKind 0x11) markerRecord nextLoc ∧
      (∀ p ∈ s.group.list, p.standing ≠ .lost) ∧ s.log.engineWaits = false ∧ s.log.copyWaits = true ∧
      s.log.device = .ready ∧ s.reclaim.state ≠ .idle ∧
      s.reclaim.copy = some { copyM with buffer := some { recordN with tagged := true } } ∧
      copyM.owner = .group ∧ copyM.placed = none ∧ headOf table = some 0 ∧
      (segAt table 0).suspect = false ∧ (segAt table 0).used + recordN.size ≤ 16320 :=
  ⟨⟨⟨rfl, rfl, rfl, rfl, rfl, rfl⟩, ⟨(by decide : 0 < 8), rfl⟩, rfl, rfl, rfl, _, rfl, rfl, rfl⟩,
    (by decide : ∀ p ∈ (staged .opened).list, p.standing ≠ .lost), rfl, rfl, rfl, nofun, rfl, rfl, rfl,
    by decide, by decide, by decide⟩

/-- A FORMAT's rewrite of the first of two key limits is being programmed. -/
def rewriting : State :=
  { programming 0x19 (.formatRewrite 9 0 [0x11]) (storedRecord 0x10 [0, 4]) false with
    prot := { base.prot with settings := [storedLimit, { storedLimit with id := 0x11 }] } }

theorem test_witness_next_rewrite :
    let settings := settingsPut rewriting.prot.settings
      { id := 0x10, value := [0, 4], sn := 9, loc := nextLoc }
    Programming rewriting { purpose := .formatRewrite 9 0 [0x11], record := storedRecord 0x10 [0, 4] }
        (requestOfKind 0x19) (storedRecord 0x10 [0, 4]) nextLoc ∧
      NothingDue rewriting rewriting.dir ∧
      settingOf settings 0x11 = some { storedLimit with id := 0x11 } ∧
      PlacesAtOnce
        { rewriting with
          ctrl := rewriting.ctrl.rest
          log := { rewriting.log with
            grant := none, segs := livened 0 24 (deadened 6 24 rewriting.log.segs) } } 0
        (recordSize 1 2) :=
  ⟨⟨⟨rfl, rfl, rfl, rfl, rfl, rfl⟩, ⟨(by decide : 0 < 8), rfl⟩, rfl, rfl, rfl, _, rfl, rfl, rfl⟩,
    ⟨rfl, rfl, rfl, rfl, rfl, (by decide : 4 ≤ erasedCount segs), (by decide : buriedTotal base.dir < 64)⟩,
    by decide, ⟨rfl, rfl, by decide, by decide, by decide, rfl, rfl, (by decide : 9 + 1 ≠ 4294967295)⟩⟩

/-! ## Witnesses: what mount scans and rebuilds -/

theorem test_witness_scan :
    let s := { mountAt (.scan [{ seg := 0, off := 64 }, { seg := 63, off := 64 }]) .mountRead with
      array := heldArray }
    Running s .mountRead ∧
      (s.array.getD 0 ArraySeg.blank).slots.head? =
        some { off := 64, size := 24, record := some (recordK [1, 2, 3]) } ∧
      (recordK [1, 2, 3]).key.length ≤ 32 ∧ 64 + (recordK [1, 2, 3]).size ≤ 16384 :=
  ⟨⟨rfl, rfl, rfl, rfl, rfl, rfl⟩, rfl, by decide, by decide⟩

/-- A stored key limit, an older one of the same id, and a policy of no known value. -/
def foundSettings : Mount :=
  { Mount.start with
    found :=
      [{ loc := { seg := 0, off := 64 }, record := { systemRecord 0x10 [0, 4] with sn := 7 } },
        { loc := { seg := 0, off := 88 }, record := { systemRecord 0x10 [1, 0] with sn := 8 } },
        { loc := { seg := 0, off := 112 }, record := { systemRecord 0x20 [3] with sn := 9 } }] }

/-- R119: of two records of one id the newer is stored, and a value out of range is not. R123: the SN counter
is 1 above the greatest found. -/
theorem test_witness_stored_settings :
    settingOf foundSettings.rebuild.settings 0x10 =
        some { id := 0x10, value := [1, 0], sn := 8, loc := { seg := 0, off := 88 } } ∧
      settingOf foundSettings.rebuild.settings 0x20 = none ∧
      settingOf foundSettings.rebuild.settings 0x11 = none ∧ foundSettings.rebuild.sn = 10 ∧
      (lastScan [readOf .filled (some 5), readOf .opened (some 2)]).rebuild.stamp = 6 := by decide

/-- A VALUE record of the key of these two bytes, found by mount. -/
def foundKey (n : Nat) : Found :=
  { loc := { seg := 0, off := 64 }
    record := { recordK [1] with key := [BitVec.ofNat 8 (n / 256), BitVec.ofNat 8 n] } }

theorem foundKey_distinct (a b : Nat) (ha : a < 65536) (hb : b < 65536)
    (h : (foundKey a).record.key = (foundKey b).record.key) : a = b := by
  simp only [foundKey, List.cons.injEq, and_true] at h
  have h₁ := congrArg BitVec.toNat h.1
  have h₂ := congrArg BitVec.toNat h.2
  simp only [BitVec.toNat_ofNat] at h₁ h₂
  omega

/-- A record of a new name joins the records of the names found. -/
theorem addNewest_fresh (reads : List SegRead) (f : Found) (names : List Found)
    (fresh : ∀ g ∈ names, g.record.key ≠ f.record.key) : addNewest reads f names = names ++ [f] := by
  induction names with
  | nil => rfl
  | cons g rest ih =>
    rw [addNewest, if_neg fun h => fresh g List.mem_cons_self h.2,
      ih fun x hx => fresh x (List.mem_cons_of_mem _ hx)]
    rfl

/-- Records found, each of a name of its own, are the records of their names. -/
theorem names_foundKey (n : Nat) (hn : n ≤ 65536) :
    nameRecords [] ((List.range n).map foundKey) = (List.range n).map foundKey := by
  have own : ∀ f ∈ (List.range n).map foundKey, f.record.kind = .value ∧ f.record.tagged = false := by
    intro f hf
    obtain ⟨k, -, rfl⟩ := List.mem_map.1 hf
    exact ⟨rfl, rfl⟩
  have standing : ∀ f ∈ (List.range n).map foundKey,
      stands ((List.range n).map foundKey) f.record = true := by
    intro f hf
    have none : ((List.range n).map foundKey).filter
        (fun f => decide (f.record.kind = .format)) = [] := by
      rw [List.filter_eq_nil_iff]
      intro g hg
      rw [(own g hg).1]
      decide
    simp [stands, isVoid, own f hf, formatSn, none, greatest]
  rw [nameRecords, List.filter_eq_self.2 standing]
  clear own standing
  induction n with
  | zero => rfl
  | succ k ih =>
    rw [List.range_succ, List.map_append, List.foldl_append, ih (by omega)]
    refine addNewest_fresh _ _ _ fun g hg same => ?_
    obtain ⟨i, hi, rfl⟩ := List.mem_map.1 hg
    rw [List.mem_range] at hi
    have := foundKey_distinct i k (by omega) (by omega) same
    omega

/-- More names than the directory has slots: of 1,025 names some are left out. -/
theorem test_witness_left_out :
    ∃ m : Mount, 1024 < (nameRecords m.reads m.found).length ∧
      ∃ g ∈ nameRecords m.reads m.found, g.entry ∉ m.rebuild.dir := by
  obtain ⟨found, own⟩ : ∃ l, l = (List.range 1025).map foundKey := ⟨_, rfl⟩
  have names : nameRecords [] found = found := own ▸ names_foundKey 1025 (by decide)
  have length : found.length = 1025 := by rw [own, List.length_map, List.length_range]
  refine ⟨{ Mount.start with found := found }, ?_, ?_⟩
  · refine Nat.lt_of_lt_of_eq ?_ (congrArg List.length names).symm
    rw [length]
    decide
  · by_contra all
    have within : found.map Found.entry ⊆ rebuiltDir ((nameRecords [] found).map Found.entry) := by
      intro e he
      obtain ⟨f, hf, rfl⟩ := List.mem_map.1 he
      by_contra out
      exact all ⟨f, (congrArg (f ∈ ·) names).mpr hf, out⟩
    have distinct : (found.map Found.entry).Nodup := by
      rw [own, List.map_map]
      refine (List.nodup_map_iff_inj_on List.nodup_range).2 fun a ha b hb same => ?_
      rw [List.mem_range] at ha hb
      exact foundKey_distinct a b (by omega) (by omega) (congrArg Entry.key same)
    have put : ∀ (l dir : List Entry), (l.foldl dirPut dir).length ≤ dir.length + l.length := by
      intro l
      induction l with
      | nil => exact fun _ => Nat.le_refl _
      | cons e rest ih =>
        intro dir
        have one : (dirPut dir e).length ≤ dir.length + 1 := by
          induction dir with
          | nil => exact Nat.le_refl _
          | cons x dir ih =>
            unfold dirPut
            split <;> [skip; split] <;> simp only [List.length_cons] <;> omega
        have := ih (dirPut dir e)
        simp only [List.foldl_cons, List.length_cons]
        omega
    have most := (distinct.subperm within).length_le
    have least := put ((admission ((nameRecords [] found).map Found.entry)).take Config.dirSlots) []
    have taken := List.length_take_le Config.dirSlots
      (admission ((nameRecords [] found).map Found.entry))
    rw [List.length_map, length] at most
    rw [List.length_nil, Nat.zero_add] at least
    exact absurd (Nat.le_trans most (Nat.le_trans least taken)) (by decide)

/-- Mount over one segment of each class, the OPEN one with this stamp and its walk ended so. -/
def eachClass (stamp : Nat) (stop : WalkStop) : Mount :=
  { Mount.start with
    reads :=
      [readOf .erased none, readOf .retired none, readOf .filled (some 2), readOf .reclaiming (some 3),
        readOf .reclaiming (some 4), readOf .opened (some stamp)]
    ends := [{ seg := 5, off := 88, stop := stop }] }

/-- R111, R120, R121: the OPEN segment is the head where its stamp is the greatest and its walk did not end
torn, and is closed else; of two RECLAIMING segments the lower stamp's stays RECLAIMING. -/
theorem test_witness_segments_as_found :
    ((eachClass 5 .erasedSpace).rebuild.segs.map SegEntry.state =
        [.erased, .retired, .filled, .reclaiming, .filled, .opened] ∧
      (segAt (eachClass 5 .erasedSpace).rebuild.segs 5).used = 24 ∧
      toClose (eachClass 5 .erasedSpace).rebuild = []) ∧
    (eachClass 5 .torn).rebuild.segs.map SegEntry.state =
        [.erased, .retired, .filled, .reclaiming, .filled, .filled] ∧
    toClose (eachClass 5 .torn).rebuild = [5] ∧ toClose (eachClass 1 .erasedSpace).rebuild = [5] ∧
    (segAt (eachClass 5 .torn).rebuild.segs 4).reclaimMarked = true ∧
    headOf (eachClass 5 .erasedSpace).rebuild.segs ≠ none := by decide

end Sys2Proof.Tests
end

section
/-!
PROOFS. STAT and LIST (R37 to R39): the payloads their parsers admit, what a LIST reply takes of the
entries after the cursor, and the two statements.
-/

namespace Sys2Proof.Machine

open Sys2Proof

/-! ## A request answered at its take -/

/-- QUIET mode omits replies of PUT, DELETE and SELECT only (R155). -/
theorem omitted_eq_false {kind : Byte} (other : kind ∉ [kPut, kDelete, kSelect]) (status : Status)
    (mode : ReplyMode) : omitted kind status mode = false := by
  simp only [List.mem_cons, List.not_mem_nil, not_or] at other
  simp [omitted, other]

/-- A frame taken from IDLE whose request ends in the same step, its reply omitted in no mode. -/
theorem endRequest_startRequest {s : State} {f : Frame} {rest : List Frame} (h : AtTake s f rest)
    (other : f.kind ∉ [kPut, kDelete, kSelect]) (status : Status) (payload : Bytes) :
    endRequest status payload (startRequest f { s with inbound := rest }) =
      answered f rest status payload s :=
  endRequest_answers (s₁ := startRequest f { s with inbound := rest }) h rfl rfl rfl status payload
    (omitted_eq_false other status _)

theorem refuseForm_startRequest {s : State} {f : Frame} {rest : List Frame} (h : AtTake s f rest)
    (other : f.kind ∉ [kPut, kDelete, kSelect]) :
    refuseForm (startRequest f { s with inbound := rest }) = answered f rest .badRequest [] s :=
  endRequest_startRequest h other .badRequest []

/-! ## The forms admitted -/

/-- A byte that counts `n`, for `n` small enough. -/
theorem eq_ofNat_iff_toNat_eq (b : Byte) {n : Nat} (small : n ≤ 32) :
    b = BitVec.ofNat 8 n ↔ b.toNat = n := by
  rw [← BitVec.toNat_inj, BitVec.toNat_ofNat, Nat.mod_eq_of_lt (by omega)]

theorem keyLengthOk_iff (k : Nat) : keyLengthOk k = true ↔ 1 ≤ k ∧ k ≤ 32 := decide_eq_true_iff

/-- The parser of GET and STAT admits exactly the well-formed payloads (R33, R37). -/
theorem parseKey_eq_some_iff (payload key : Bytes) :
    parseKey payload = some key ↔ IsKey payload key := by
  cases payload with
  | nil => simp [parseKey, IsKey]
  | cons k rest =>
    rw [parseKey, Option.ite_none_right_eq_some]
    simp only [IsKey, keyLengthOk_iff, Option.some.injEq, List.cons.injEq]
    constructor
    · rintro ⟨⟨⟨least, most⟩, length⟩, rfl⟩
      exact ⟨⟨(eq_ofNat_iff_toNat_eq k (by omega)).2 length.symm, rfl⟩, by omega, by omega⟩
    · rintro ⟨⟨byte, rfl⟩, least, most⟩
      have := (eq_ofNat_iff_toNat_eq k most).1 byte
      exact ⟨⟨by omega, this.symm⟩, rfl⟩

theorem parseKey_eq_none_iff (payload : Bytes) :
    parseKey payload = none ↔ ¬ ∃ key, IsKey payload key := by
  simp only [Option.eq_none_iff_forall_ne_some, ← parseKey_eq_some_iff, not_exists, ne_eq]

/-- The parser of LIST admits exactly the well-formed payloads (R38). -/
theorem parseList_eq_some_iff (payload : Bytes) (count : Nat) (cursor : Bytes) :
    parseList payload = some (count, cursor) ↔ IsList payload count cursor := by
  match payload with
  | [] => simp [parseList, IsList]
  | [_] => simp [parseList, IsList]
  | n :: c :: rest =>
    rw [parseList, Option.ite_none_right_eq_some]
    simp only [IsList, Config.maxKey, Option.some.injEq, Prod.mk.injEq, List.cons.injEq]
    constructor
    · rintro ⟨⟨least, most, short, length⟩, rfl, rfl⟩
      exact ⟨⟨(eq_ofNat_iff_toNat_eq n (by omega)).2 rfl,
        (eq_ofNat_iff_toNat_eq c (by omega)).2 length.symm, rfl⟩, least, most, by omega⟩
    · rintro ⟨⟨number, byte, rfl⟩, least, most, short⟩
      have hn := (eq_ofNat_iff_toNat_eq n (by omega)).1 number
      have hc := (eq_ofNat_iff_toNat_eq c short).1 byte
      exact ⟨⟨by omega, by omega, by omega, hc.symm⟩, hn, rfl⟩

theorem parseList_eq_none_iff (payload : Bytes) :
    parseList payload = none ↔ ¬ ∃ count cursor, IsList payload count cursor := by
  simp only [Option.eq_none_iff_forall_ne_some, ← parseList_eq_some_iff, not_exists, ne_eq,
    Prod.forall]

/-! ## STAT -/

theorem exec_stat_of_isKey {s : State} {f : Frame} {rest : List Frame} {key : Bytes}
    (h : AtTake s f rest) (kind : f.kind = kStat) (form : IsKey f.payload key) :
    exec .stat s = .next (answered f rest .ok (statPayload (lookup s.dir s.engine.ns key)) s) := by
  rw [take_stat h kind, handleStat, (parseKey_eq_some_iff _ _).2 form]
  exact congrArg _ (endRequest_startRequest h (by rw [kind]; decide) _ _)

theorem exec_stat_of_not_isKey {s : State} {f : Frame} {rest : List Frame} (h : AtTake s f rest)
    (kind : f.kind = kStat) (malformed : ¬ ∃ key, IsKey f.payload key) :
    exec .stat s = .next (answered f rest .badRequest [] s) := by
  rw [take_stat h kind, handleStat, (parseKey_eq_none_iff _).2 malformed]
  exact congrArg _ (refuseForm_startRequest h (by rw [kind]; decide))

theorem statPayload_of_live {e : Entry} {length : Nat} (live : e.state = .live length) :
    statPayload (some e) = [0x01] ++ le 4 e.version ++ le 2 length := by
  simp [statPayload, Entry.isLive, Entry.length, live]

theorem statPayload_of_buried {e : Entry} (buried : e.state = .buried) :
    statPayload (some e) = [0x02] ++ le 4 e.version ++ [0x00, 0x00] := by
  have zero : le 2 0 = [0x00, 0x00] := rfl
  simp [statPayload, Entry.isLive, Entry.length, buried, zero]

/-- Settles O26: the form decides between the two replies, and the payload follows the lookup's answer:
no entry, a LIVE one, a BURIED one. -/
theorem statReportsOneKey : Obligations.StatReportsOneKey := by
  intro s f rest h kind
  refine ⟨fun key form => ?_, exec_stat_of_not_isKey h kind⟩
  rw [exec_stat_of_isKey h kind form, lookup]
  cases s.dir.find? fun e => decide (e.ns = s.engine.ns ∧ e.key = key) with
  | none => rfl
  | some e =>
    cases state : e.state with
    | live length => simp only [statPayload_of_live state, state]
    | buried => simp only [statPayload_of_buried state, state]

/-! ## LIST -/

theorem exec_list_of_isList {s : State} {f : Frame} {rest : List Frame} {count : Nat} {cursor : Bytes}
    (h : AtTake s f rest) (kind : f.kind = kList) (form : IsList f.payload count cursor) :
    exec .list s =
      .next (answered f rest .ok (listPayload s.dir s.engine.ns count cursor) s) := by
  rw [take_list h kind, handleList, (parseList_eq_some_iff _ _ _).2 form]
  exact congrArg _ (endRequest_startRequest h (by rw [kind]; decide) _ _)

theorem exec_list_of_not_isList {s : State} {f : Frame} {rest : List Frame} (h : AtTake s f rest)
    (kind : f.kind = kList) (malformed : ¬ ∃ count cursor, IsList f.payload count cursor) :
    exec .list s = .next (answered f rest .badRequest [] s) := by
  rw [take_list h kind, handleList, (parseList_eq_none_iff _).2 malformed]
  exact congrArg _ (refuseForm_startRequest h (by rw [kind]; decide))

/-- What `listTake` takes is an initial run of the entries within the count and the room, and the entry
after it, if there is one, fails one of the two (R39). -/
theorem listTake_longest (entries : List Entry) (count room : Nat) :
    ∃ left, entries = listTake entries count room ++ left ∧
      (listTake entries count room).length ≤ count ∧
      ((listTake entries count room).map fun e => 7 + e.key.length).sum ≤ room ∧
      ∀ e more, left = e :: more →
        (listTake entries count room).length = count ∨
          room < ((listTake entries count room).map fun e => 7 + e.key.length).sum +
            (7 + e.key.length) := by
  induction entries generalizing count room with
  | nil => exact ⟨[], by simp [listTake]⟩
  | cons x rest ih =>
    rw [listTake]
    split
    next fits =>
      obtain ⟨left, run, within, short, stops⟩ := ih (count - 1) (room - (7 + x.key.length))
      simp only [List.length_cons, List.map_cons, List.sum_cons]
      refine ⟨left, congrArg (x :: ·) run, by omega, by omega, fun e more follows => ?_⟩
      have := stops e more follows
      omega
    next full =>
      refine ⟨x :: rest, rfl, Nat.zero_le _, Nat.zero_le _, fun e more follows => ?_⟩
      obtain ⟨rfl, -⟩ := List.cons.inj follows
      simp only [List.length_nil, List.map_nil, List.sum_nil]
      omega

/-- MORE is set exactly when entries are left behind those taken (R39). -/
theorem flag_more (taken left : List Entry) :
    flag (decide (taken.length < (taken ++ left).length)) =
      if left = [] then (0x00 : Byte) else 0x01 := by
  cases left with
  | nil => simp [flag]
  | cons e more => simp [flag]

/-- Settles O27: the run taken is `listTake`'s, over the 246 bytes behind the two fixed fields. -/
theorem listReportsLiveKeysAfterTheCursor : Obligations.ListReportsLiveKeysAfterTheCursor := by
  intro s f rest h kind
  refine ⟨fun count cursor form => ?_, exec_list_of_not_isList h kind⟩
  obtain ⟨left, run, within, short, stops⟩ :=
    listTake_longest (listAfter s.dir s.engine.ns cursor) count (Config.maxPayload - 2)
  refine ⟨_, left, run, within, Nat.add_le_add_left short 2, fun e more follows => ?_, ?_⟩
  · refine (stops e more follows).imp_right fun (beyond : 246 < _) => ?_
    rw [Nat.add_assoc]
    exact Nat.add_lt_add_left beyond 2
  · rw [exec_list_of_isList h kind form, ← flag_more, ← run]
    rfl

end Sys2Proof.Machine
end

section
/-!
PROOFS. LOCK, LOCKDOWN, GATE_CLOSE and UNLOCK (R134, R135, R138, R143): the payloads their parsers
admit, the reply of a request that changes the protection unit, and the two statements.
-/

namespace Sys2Proof.Machine

open Sys2Proof

/-- A frame taken from IDLE whose request sets the protection unit and ends in the same step, its reply
omitted in no mode. -/
theorem endRequest_startRequest_prot {s : State} {f : Frame} {rest : List Frame} (h : AtTake s f rest)
    (other : f.kind ∉ [kPut, kDelete, kSelect]) (prot : Protection) (status : Status)
    (payload : Bytes) :
    endRequest status payload { startRequest f { s with inbound := rest } with prot := prot } =
      answered f rest status payload { s with prot := prot } :=
  endRequest_answers (s₁ := { startRequest f { s with inbound := rest } with prot := prot }) h rfl rfl
    rfl status payload (omitted_eq_false other status _)

/-! ## The forms admitted -/

/-- The action byte of a mask request is CLEAR or SET. -/
theorem action_cases {action : Byte} (most : action.toNat ≤ 1) : action = 0x00 ∨ action = 0x01 := by
  have zero := eq_ofNat_iff_toNat_eq action (n := 0) (by decide)
  have one := eq_ofNat_iff_toNat_eq action (n := 1) (by decide)
  rcases Nat.le_one_iff_eq_zero_or_eq_one.1 most with clear | set
  · exact .inl (zero.2 clear)
  · exact .inr (one.2 set)

theorem parseMaskAction_of_le (mask : Byte) {action : Byte} (most : action.toNat ≤ 1) :
    parseMaskAction [mask, action] = some (mask, decide (action = 0x01)) := by
  obtain rfl | rfl := action_cases most <;> rfl

/-- LOCK and PERSIST refuse every other payload (R134, R136). -/
theorem parseMaskAction_eq_none {payload : Bytes}
    (malformed : ¬ ∃ mask action : Byte, payload = [mask, action] ∧ action.toNat ≤ 1) :
    parseMaskAction payload = none := by
  match payload with
  | [] | [_] | _ :: _ :: _ :: _ => rfl
  | [mask, action] =>
    have set : action ≠ 0x01 := fun e => malformed ⟨mask, action, rfl, by rw [e]; decide⟩
    have clear : action ≠ 0x00 := fun e => malformed ⟨mask, action, rfl, by rw [e]; decide⟩
    rw [parseMaskAction, if_neg set, if_neg clear]

/-- LOCKDOWN refuses every payload but a mask (R135). -/
theorem parseMask_eq_none {payload : Bytes} (malformed : payload.length ≠ 1) :
    parseMask payload = none := by
  match payload with
  | [] | _ :: _ :: _ => rfl
  | [_] => exact absurd rfl malformed

/-! ## LOCK and LOCKDOWN -/

theorem exec_lock_of_form {s : State} {f : Frame} {rest : List Frame} {mask action : Byte}
    (h : AtTake s f rest) (kind : f.kind = kLock) (form : f.payload = [mask, action])
    (most : action.toNat ≤ 1) :
    exec .lock s = .next
      (if s.group.state ≠ .noGroup then answered f rest .groupOpen [] s
      else if mask &&& s.prot.lockdowns ≠ 0 then answered f rest .denied [] s
      else
        let locks := applyMask s.prot.sessionLocks mask (decide (action = 0x01))
        answered f rest .ok [locks, locks ||| persistentLocks s]
          { s with prot := { s.prot with sessionLocks := locks } }) := by
  have other : f.kind ∉ [kPut, kDelete, kSelect] := by rw [kind]; decide
  rw [take_lock h kind, handleLock, form, parseMaskAction_of_le mask most]
  refine congrArg _ ?_
  simp only [inGroup, decide_eq_true_eq]
  split_ifs
  · exact endRequest_startRequest h other .groupOpen []
  · exact endRequest_startRequest h other .denied []
  · exact endRequest_startRequest_prot h other _ .ok _

theorem exec_lock_of_malformed {s : State} {f : Frame} {rest : List Frame} (h : AtTake s f rest)
    (kind : f.kind = kLock)
    (malformed : ¬ ∃ mask action : Byte, f.payload = [mask, action] ∧ action.toNat ≤ 1) :
    exec .lock s = .next (answered f rest .badRequest [] s) := by
  rw [take_lock h kind, handleLock, parseMaskAction_eq_none malformed]
  exact congrArg _ (refuseForm_startRequest h (by rw [kind]; decide))

theorem exec_lockdown_of_form {s : State} {f : Frame} {rest : List Frame} {mask : Byte}
    (h : AtTake s f rest) (kind : f.kind = kLockdown) (form : f.payload = [mask]) :
    exec .lockdown s = .next (answered f rest .ok [s.prot.lockdowns ||| mask]
      { s with prot := { s.prot with lockdowns := s.prot.lockdowns ||| mask } }) := by
  rw [take_lockdown h kind, handleLockdown, form, parseMask]
  exact congrArg _ (endRequest_startRequest_prot h (by rw [kind]; decide) _ .ok _)

theorem exec_lockdown_of_malformed {s : State} {f : Frame} {rest : List Frame} (h : AtTake s f rest)
    (kind : f.kind = kLockdown) (malformed : f.payload.length ≠ 1) :
    exec .lockdown s = .next (answered f rest .badRequest [] s) := by
  rw [take_lockdown h kind, handleLockdown, parseMask_eq_none malformed]
  exact congrArg _ (refuseForm_startRequest h (by rw [kind]; decide))

/-- One flag set in both masks keeps their meet from being empty. -/
theorem and_ne_zero_of_getLsbD {a b : Byte} {n : Nat} (left : a.getLsbD n = true)
    (right : b.getLsbD n = true) : a &&& b ≠ 0 := by
  intro empty
  have bit := BitVec.getLsbD_and (x := a) (y := b) (i := n)
  simp [empty, left, right] at bit

/-- Settles O28: the form, the group and the meet of mask and lockdowns decide a LOCK in this order, and
one namespace of the mask with a lockdown is enough for the meet. -/
theorem lockAndLockdownGuardSessionLocks : Obligations.LockAndLockdownGuardSessionLocks := by
  constructor
  · intro s f rest h kind
    refine ⟨fun mask action form most => ?_, exec_lock_of_malformed h kind⟩
    rw [exec_lock_of_form h kind form most]
    simp only [applyMask, decide_eq_true_eq]
  · intro s f rest h
    refine ⟨fun mask kind form => exec_lockdown_of_form h kind form, exec_lockdown_of_malformed h,
      fun mask action n kind form most masked down free => ?_⟩
    rw [exec_lock_of_form h kind form most, if_neg (not_not.2 free),
      if_pos (and_ne_zero_of_getLsbD masked down)]

/-! ## GATE_CLOSE and UNLOCK -/

theorem exec_gateClose {s : State} {f : Frame} {rest : List Frame} (h : AtTake s f rest)
    (kind : f.kind = kGateClose) :
    exec .gateClose s = .next
      (if f.payload = [] then
        answered f rest .ok [0x00] { s with prot := { s.prot with gateOpen := false } }
      else answered f rest .badRequest [] s) := by
  have other : f.kind ∉ [kPut, kDelete, kSelect] := by rw [kind]; decide
  rw [take_gateClose h kind, handleGateClose]
  refine congrArg _ ?_
  rw [ite_not]
  split_ifs
  · exact endRequest_startRequest_prot h other _ .ok _
  · exact refuseForm_startRequest h other

/-- The gate and the counter that an UNLOCK reply carries are those of the state the decision leaves
(R143). -/
theorem exec_unlock {s : State} {f : Frame} {rest : List Frame} (h : AtTake s f rest)
    (kind : f.kind = kUnlock) :
    exec .unlock s = .next
      (if f.payload.length ≠ 16 then answered f rest .badRequest (unlockPayload s) s
      else if policyOf s.prot.settings ≠ .passphrase then answered f rest .denied (unlockPayload s) s
      else if s.prot.unlockFails = Config.unlockLimit then
        answered f rest .lockedOut (unlockPayload s) s
      else
        match passphraseOf s with
        | none => answered f rest .denied (unlockPayload s) s
        | some stored =>
          if f.payload = stored then
            let t := { s with prot := { s.prot with gateOpen := true, unlockFails := 0 } }
            answered f rest .ok (unlockPayload t) t
          else
            let t := { s with prot := { s.prot with unlockFails := s.prot.unlockFails + 1 } }
            answered f rest .denied (unlockPayload t) t) := by
  have other : f.kind ∉ [kPut, kDelete, kSelect] := by rw [kind]; decide
  have unchanged := endRequest_startRequest h other
  have changed := endRequest_startRequest_prot h other
  rw [take_unlock h kind, handleUnlock, parsePassphrase]
  refine congrArg _ ?_
  by_cases form : f.payload.length = 16
  case neg =>
    rw [if_neg form, if_pos form]
    exact unchanged .badRequest _
  rw [if_pos form, if_neg (not_not.2 form)]
  dsimp only
  split_ifs
  · exact unchanged .denied _
  · exact unchanged .lockedOut _
  · have same : passphraseOf { s with inbound := rest } = passphraseOf s := rfl
    rw [same]
    cases passphraseOf s with
    | none => exact unchanged .denied _
    | some stored =>
      dsimp only
      split_ifs
      · exact changed _ .ok _
      · exact changed _ .denied _

/-- Settles O29: the rows of UNLOCK's table are the branches of its decision, each with the gate and the
counter it leaves. -/
theorem gateIsClosedAndOpened : Obligations.GateIsClosedAndOpened :=
  ⟨fun _ _ _ h kind => exec_gateClose h kind, fun _ _ _ h kind => exec_unlock h kind⟩

end Sys2Proof.Machine
end

section
/-!
PROOFS. IDENT and SELECT (R154, R155, R163): the payload SELECT admits, the context it sets, the end of
the request under that context, and the two statements.
-/

namespace Sys2Proof.Machine

open Sys2Proof

/-! ## IDENT -/

/-- The 25 bytes of the IDENT reply (spec/10, IDENT reply). -/
theorem identPayload_eq : identPayload =
    [0x08, 0x24, 0x01, 0x00, 0x00, 0x10, 0x00, 64, 0x00, 0x40, 0xC0, 0x3F, 8, 32, 0x00, 0x10, 0x00,
      0x04, 32, 8, 8, 248, 240, 64, 8] := by decide

/-- Settles O23: the emptiness of the payload decides between the two replies. -/
theorem identReportsTheFixedValues : Obligations.IdentReportsTheFixedValues := by
  intro s f rest h kind
  have other : f.kind ∉ [kPut, kDelete, kSelect] := by rw [kind]; decide
  rw [take_ident h kind, handleIdent, ite_not, ← identPayload_eq]
  refine congrArg _ ?_
  split_ifs
  · exact endRequest_startRequest h other .ok _
  · exact refuseForm_startRequest h other

/-! ## The form admitted -/

theorem byteOf_toNat (b : Byte) : byteOf b.toNat = b := by simp [byteOf]

/-- The parser of SELECT admits three values within their bounds, together (R154). -/
theorem parseSelect_of_le {n m w : Byte} (ns : n.toNat ≤ 7) (mode : m.toNat ≤ 1) (mark : w.toNat ≤ 7) :
    parseSelect [n, m, w] =
      some (n.toNat, if m = 0x00 then .full else .quiet, w.toNat) := by
  rw [parseSelect, if_pos ⟨Nat.lt_succ_of_le ns, mark⟩]
  obtain rfl | rfl := action_cases mode <;> rfl

/-- One value out of its bounds, or another length, and nothing is admitted (R154). -/
theorem parseSelect_eq_none {payload : Bytes}
    (malformed : ¬ ∃ n m w : Byte, payload = [n, m, w] ∧ n.toNat ≤ 7 ∧ m.toNat ≤ 1 ∧ w.toNat ≤ 7) :
    parseSelect payload = none := by
  match payload with
  | [] | [_] | [_, _] | _ :: _ :: _ :: _ :: _ => rfl
  | [n, m, w] =>
    rw [parseSelect, ite_eq_right_iff]
    rintro ⟨ns, mark⟩
    have beyond (mode : m.toNat ≤ 1) : False :=
      malformed ⟨n, m, w, rfl, Nat.le_of_lt_succ ns, mode, mark⟩
    have full : m ≠ 0x00 := fun e => beyond (by rw [e]; decide)
    have quiet : m ≠ 0x01 := fun e => beyond (by rw [e]; decide)
    rw [if_neg full, if_neg quiet]

/-! ## The context and the end of the request -/

/-- The context of the link with all three values set (R153, R154). -/
def withContext (ns : Nat) (mode : ReplyMode) (watermark : Nat) (s : State) : State :=
  { s with engine := { s.engine with ns := ns, mode := mode, watermark := watermark } }

/-- The context says nothing about whether the engine may take a frame. -/
theorem AtTake.withContext {s : State} {f : Frame} {rest : List Frame} (h : AtTake s f rest)
    (ns : Nat) (mode : ReplyMode) (watermark : Nat) :
    AtTake (withContext ns mode watermark s) f rest where
  powered := h.powered
  rst := h.rst
  mounted := h.mounted
  idle := congrArg (fun e => { e with ns := ns, mode := mode, watermark := watermark }) h.idle
  head := h.head
  slot := h.slot
  quiet := h.quiet

/-- QUIET mode omits no reply but OK (R155). -/
theorem omitted_of_ne_ok (kind : Byte) {status : Status} (refused : status ≠ .ok) (mode : ReplyMode) :
    omitted kind status mode = false := by
  simp [omitted, refused]

/-- QUIET mode omits the OK reply of SELECT (R155). -/
theorem omitted_select_ok (mode : ReplyMode) :
    omitted kSelect .ok mode = decide (mode = .quiet) := by
  cases mode <;> decide

/-- A frame taken from IDLE whose request ends in the same step: without its reply where the mode omits
it, and else answered. -/
theorem endRequest_taken {s : State} {f : Frame} {rest : List Frame} (h : AtTake s f rest)
    (status : Status) (payload : Bytes) :
    endRequest status payload (startRequest f { s with inbound := rest }) =
      if omitted f.kind status s.engine.mode then { s with inbound := rest }
      else answered f rest status payload s := by
  split_ifs with judged
  · have unbroken : s.engine.breaking = none := breaking_of_rest h.idle
    refine (endRequest_omits (s := startRequest f { s with inbound := rest }) unbroken rfl status
      payload judged).trans ?_
    exact congrArg (fun e => { s with inbound := rest, engine := e }) h.idle
  · exact endRequest_answers (s₁ := startRequest f { s with inbound := rest }) h rfl rfl rfl status
      payload (Bool.eq_false_iff.2 judged)

/-! ## SELECT -/

/-- The new mode judges the OK reply: QUIET omits it, FULL queues it (R154, R155). -/
theorem exec_select_of_form {s : State} {f : Frame} {rest : List Frame} {ns mark : Nat}
    {mode : ReplyMode} (h : AtTake s f rest) (kind : f.kind = kSelect)
    (form : parseSelect f.payload = some (ns, mode, mark)) :
    exec .select s = .next
      (if mode = .quiet then { withContext ns mode mark s with inbound := rest }
      else answered f rest .ok [byteOf ns, mode.code, byteOf mark] (withContext ns mode mark s)) := by
  rw [take_select h kind, handleSelect, form]
  refine congrArg _ ((endRequest_taken (h.withContext ns mode mark) .ok _).trans ?_)
  rw [kind, omitted_select_ok]
  simp only [decide_eq_true_eq]
  rfl

theorem exec_select_of_malformed {s : State} {f : Frame} {rest : List Frame} (h : AtTake s f rest)
    (kind : f.kind = kSelect)
    (malformed : ¬ ∃ n m w : Byte, f.payload = [n, m, w] ∧ n.toNat ≤ 7 ∧ m.toNat ≤ 1 ∧ w.toNat ≤ 7) :
    exec .select s = .next (answered f rest .badRequest [] s) := by
  rw [take_select h kind, handleSelect, parseSelect_eq_none malformed]
  refine congrArg _ ((endRequest_taken h .badRequest []).trans ?_)
  rw [omitted_of_ne_ok _ (by decide), if_neg Bool.false_ne_true]

/-- While the part runs with no notice pending, ATN is the watermark's test alone (R160, R175). -/
theorem atn_iff {s : State} (powered : s.powered = true) (rst : s.rst = false)
    (quiet : s.notices = []) : atn s = true ↔ s.engine.watermark < s.replies.length := by
  simp [atn, powered, rst, quiet]

/-- Settles O24: the form decides whether the context changes, the new mode whether the reply is queued,
and the new watermark is the one ATN tests. -/
theorem selectSetsTheWholeContext : Obligations.SelectSetsTheWholeContext := by
  intro s f rest h kind
  refine ⟨fun n m w form ns mode mark => ?_, exec_select_of_malformed h kind⟩
  have ends := exec_select_of_form h kind (form ▸ parseSelect_of_le ns mode mark)
  rw [byteOf_toNat, byteOf_toNat] at ends
  have reply : f.kind + 0x80 = 0x82 := by rw [kind]; decide
  obtain rfl | rfl := action_cases mode
  · unfold answered at ends
    rw [reply] at ends
    exact ⟨ends, atn_iff h.powered h.rst h.quiet⟩
  · exact ⟨ends, atn_iff h.powered h.rst h.quiet⟩

end Sys2Proof.Machine
end

section
/-!
PROOFS. The message link (R166 to R173): when the port runs a transaction and when it runs none, the link
status record of POLL, the unknown operation byte, and the two statements.
-/

namespace Sys2Proof.Machine

open Sys2Proof

/-! ## Whether the port runs a transaction -/

/-- A port that can start a transaction runs the effect of any. -/
theorem transaction_of_ready {s : State} (h : PortReady s) (bytes : Bytes) (effect : State → State) :
    transaction bytes effect s = effect s :=
  if_pos (by simp [linkReady, running, h.powered, h.rst, h.phase])

/-- The part runs, and neither does a transaction stand open nor can one start before SEL is released
(R166, R176). -/
structure PortShut (s : State) : Prop where
  powered : s.powered = true
  rst : s.rst = false
  started : s.port.phase ≠ .idle
  closed : s.port.phase ≠ .receiving

theorem transaction_of_shut {s : State} (h : PortShut s) (bytes : Bytes) (effect : State → State) :
    transaction bytes effect s = s := by
  have runs : running s = true := by simp [running, h.powered, h.rst]
  have refused : linkReady bytes s ≠ true := by simp [linkReady, h.started, h.closed]
  rw [transaction, if_neg refused, selIgnored, if_pos runs]

theorem exec_poll_of_ready {s : State} (h : PortReady s) :
    exec .poll s = .next (linked 0xA4 1 [] (statusRecord s) s) :=
  congrArg _ (transaction_of_ready h [opPoll] _)

theorem exec_unknownOperation_of_ready {s : State} (h : PortReady s) (op : Byte) :
    exec (.unknownOperation op) s = .next (ignoreTransaction op s) :=
  congrArg _ (transaction_of_ready h [op] _)

theorem exec_send_of_shut {s : State} (h : PortShut s) (kind tag : Byte) (payload : Bytes)
    (crc : BitVec 16) : exec (.send kind tag payload crc) s = .next s :=
  congrArg _ (transaction_of_shut h (opSend :: sentFrame kind tag payload crc) _)

theorem exec_fetch_of_shut {s : State} (h : PortShut s) : exec .fetch s = .next s :=
  congrArg _ (transaction_of_shut h [opFetch] _)

theorem exec_take_of_shut {s : State} (h : PortShut s) (number : Byte) :
    exec (.take number) s = .next s :=
  congrArg _ (transaction_of_shut h [opTake, number] _)

theorem exec_poll_of_shut {s : State} (h : PortShut s) : exec .poll s = .next s :=
  congrArg _ (transaction_of_shut h [opPoll] _)

theorem exec_cancel_of_shut {s : State} (h : PortShut s) (tag : Byte) :
    exec (.cancel tag) s = .next s :=
  congrArg _ (transaction_of_shut h [opCancel, tag] _)

/-! ## The pending-notice mask -/

/-- A flag stands in masks joined one after another when it stands in the first or in one of the
others. -/
theorem getLsbD_foldl_bit (notices : List Notice) (mask : Byte) (i : Nat) :
    (notices.foldl (fun m n => m ||| n.bit) mask).getLsbD i = true ↔
      mask.getLsbD i = true ∨ ∃ n ∈ notices, n.bit.getLsbD i = true := by
  induction notices generalizing mask with
  | nil => simp
  | cons n rest ih =>
    rw [List.foldl_cons, ih, BitVec.getLsbD_or, Bool.or_eq_true, List.exists_mem_cons_iff,
      or_assoc]

/-- The flag of a notice stands at the place of its kind (R159, R172). -/
theorem notice_getLsbD_bit (n : Notice) {i : Nat} (low : i < 5) :
    n.bit.getLsbD i = true ↔ n.kind = 0xF0 + BitVec.ofNat 8 i := by
  revert i
  cases n with
  | mounted | spaceLow | segmentRetired | recordLost | readOnly =>
    dsimp only [Notice.bit, Notice.kind]
    decide

theorem noticeMask_getLsbD (s : State) {i : Nat} (low : i < 5) :
    (noticeMask s).getLsbD i = true ↔ ∃ n ∈ s.notices, n.kind = 0xF0 + BitVec.ofNat 8 i := by
  have blank : (0 : Byte).getLsbD i ≠ true := Bool.eq_false_iff.1 BitVec.getLsbD_zero
  rw [noticeMask, getLsbD_foldl_bit, or_iff_right blank]
  simp only [notice_getLsbD_bit _ low]

theorem noticeMask_of_quiet {s : State} (quiet : s.notices = []) : noticeMask s = 0 := by
  rw [noticeMask, quiet, List.foldl_nil]

/-! ## POLL -/

/-- MOUNTING shows an IDLE engine (R149, R172). -/
theorem shownEngine_code (s : State) :
    (shownEngine s).code = if s.log.device = .mounting then 0x00 else s.engine.state.code :=
  apply_ite EngineState.code _ _ _

/-- The record's first 7 bytes while mount goes on: engine, queue, notices, group and reclaim unit as
after reset (R66, R172). -/
theorem statusFields_of_mounting {s : State} (mounting : s.log.device = .mounting)
    (inv : MountingInv s) :
    statusFields s = [0x00, 0x00, byteOf (8 - s.inbound.length), 0x00, 0x00, 0x00, 0x00] := by
  rw [statusFields, shownEngine_code, if_pos mounting, mounting, noticeMask_of_quiet inv.notices,
    inv.replies, inv.group, inv.reclaim]
  rfl

/-- A notice is pending only while no reply slot is free (R157). -/
theorem QueueInv.full_of_notice {s : State} (inv : QueueInv s) (pending : noticeMask s ≠ 0) :
    s.replies.length = 8 :=
  inv.replies.eq_of_not_lt fun free => pending (noticeMask_of_quiet (inv.notices free))

/-- Settles O18: the fields are those of `statusFields`, and the notice flags are a fold over the pending
notices. -/
theorem pollReadsTheStatusRecord : Obligations.PollReadsTheStatusRecord := by
  intro s ready engine fields answer
  have same : statusFields s = fields := by
    rw [statusFields, shownEngine_code]
    rfl
  refine ⟨?_, fun mounting inv => ?_, fun i low => noticeMask_getLsbD s low,
    fun inv => inv.full_of_notice⟩
  · rw [exec_poll_of_ready ready, statusRecord, same]
    rfl
  · rw [← same, statusFields_of_mounting mounting inv]
    rfl

/-! ## An unknown operation byte -/

/-- After an unknown operation byte nothing starts before SEL is released (R168). -/
theorem PortReady.shut_ignoreTransaction {s : State} (h : PortReady s) (op : Byte) :
    PortShut (ignoreTransaction op s) where
  powered := h.powered
  rst := h.rst
  started := nofun
  closed := nofun

/-- After an unknown operation byte 0xFF is driven (R168). -/
theorem sdo_ignoreTransaction {s : State} (h : PortReady s) (op : Byte) :
    sdo (ignoreTransaction op s) = some ([], 0xFF) := by
  simp [sdo, ignoreTransaction, h.powered, h.rst, nothingByte]

/-- Settles O21: the operation byte leaves the port IGNORING, and an IGNORING port is shut. -/
theorem unknownOperationIsIgnored : Obligations.UnknownOperationIsIgnored := by
  intro s op ready _
  have shut := ready.shut_ignoreTransaction op
  exact ⟨ignoreTransaction op s, exec_unknownOperation_of_ready ready op, rfl, rfl, rfl,
    sdo_ignoreTransaction ready op, exec_send_of_shut shut, exec_take_of_shut shut,
    exec_cancel_of_shut shut, exec_fetch_of_shut shut, exec_poll_of_shut shut⟩

end Sys2Proof.Machine
end

section
/-!
PROOFS. What the blocks inside the part do, in primitives fine enough for the invariants over the
segment table, the directory's size and the device state. `Acts s t` refines `Moves s t`: every
primitive says what it keeps, with what it needs of a state of `SegInv` as a premise. The claims of R52
are not among them: they alone add entries to the directory, settings and live bytes.
-/

namespace Sys2Proof.Machine

open Sys2Proof

/-! ## The primitives -/

/-- A change of a segment's entry that opens nothing and keeps its bytes within their bounds (R45, R47). -/
structure Tame (e e' : SegEntry) : Prop where
  opened : e'.state = .opened → e.state = .opened
  used : e.used ≤ 16320 → e'.used ≤ 16320
  live : e.used ≤ 16320 → e.live ≤ e.used → e'.live ≤ e'.used

/-- The primitive changes of the blocks inside the part but for the claims of R52. -/
inductive Acts : State → State → Prop
  | refl (s : State) : Acts s s
  | trans {s t u : State} : Acts s t → Acts t u → Acts s u
  | blocks (s : State) (e : Engine) (g : Group) (l : Log) (r : Reclaim) (ns : e.ns = s.engine.ns)
      (mode : e.mode = s.engine.mode) (mark : e.watermark = s.engine.watermark)
      (job : ∀ j, e.job = some j → SegInv s → j.record.small)
      (assembly : ∀ a, e.assembly = some a → SegInv s →
        a.form.key.length ≤ 32 ∧ a.form.total ≤ 4096)
      (reserved : g.reserved.length ≤ s.group.reserved.length) (segs : l.segs = s.log.segs)
      (device : s.log.device ≠ .mounting → l.device ≠ .mounting)
      (grant : ∀ g, l.grant = some g → SegInv s → g.record.small)
      (copy : ∀ c b, r.copy = some c → c.buffer = some b → SegInv s → b.small) :
      Acts s { s with engine := e, group := g, log := l, reclaim := r }
  | modSeg (s : State) (i : Nat) (f : SegEntry → SegEntry) (tame : ∀ e, Tame e (f e)) :
      Acts s (Machine.modSeg i f s)
  | occupy (s : State) (g : Grant) (head : Nat) (small : SegInv s → g.record.small)
      (fits : SegInv s → (segAt s.log.segs head).used + g.record.size ≤ 16320) :
      Acts s (Machine.occupy g head s)
  | changeHead (s : State) (v stamp : Nat) : Acts s (Machine.changeHead v stamp s)
  | ask (s : State) (op : ArrayOp) (inner : op.ofMount = false)
      (small : ∀ loc r, op = .programRecord loc r → SegInv s → r.small) :
      Acts s (Machine.ask op s)
  | completeOp (s : State) : Acts s (Machine.completeOp s)
  | dropGetReads (s : State) : Acts s (Machine.dropGetReads s)
  | enqueue (s : State) (o : Out) (free : slotFree s = true) (quiet : s.notices = []) :
      Acts s (Machine.enqueue o s)
  | raise (s : State) (n : Notice) : Acts s (Machine.raise n s)
  | dirDrop (s : State) (p : Entry → Bool) : Acts s { s with dir := s.dir.filter p }

theorem moves_changeHead (v stamp : Nat) (s : State) : Moves s (changeHead v stamp s) := by
  unfold changeHead
  dsimp only
  split
  · exact .trans (moves_modSeg _ _ s) (moves_modSeg _ _ _)
  · exact moves_modSeg _ _ s

theorem Acts.moves {s t : State} (h : Acts s t) : Moves s t := by
  induction h with
  | refl s => exact .refl s
  | trans _ _ ih₁ ih₂ => exact .trans ih₁ ih₂
  | blocks s e g l r ns mode mark => exact .blocks s e g l r ns mode mark
  | modSeg s i f => exact moves_modSeg i f s
  | occupy s g head => exact moves_occupy g head s
  | changeHead s v stamp => exact moves_changeHead v stamp s
  | ask s op => exact .ask s op
  | completeOp s => exact .completeOp s
  | dropGetReads s => exact .dropGetReads s
  | enqueue s o free quiet => exact .enqueue s o free quiet
  | raise s n => exact .raise s n
  | dirDrop s p => exact .dirDrop s p

/-! ## Updates that keep or drop what is in hand -/

theorem Acts.engine (s : State) (e : Engine) (ns : e.ns = s.engine.ns)
    (mode : e.mode = s.engine.mode) (mark : e.watermark = s.engine.watermark)
    (job : ∀ j, e.job = some j → SegInv s → j.record.small)
    (assembly : ∀ a, e.assembly = some a → SegInv s →
      a.form.key.length ≤ 32 ∧ a.form.total ≤ 4096) :
    Acts s { s with engine := e } :=
  .blocks s e s.group s.log s.reclaim ns mode mark job assembly (Nat.le_refl _) rfl id
    (fun g hg h => h.grant g hg) fun c b hc hb h => h.copy c b hc hb

theorem Acts.group (s : State) (g : Group) (reserved : g.reserved.length ≤ s.group.reserved.length) :
    Acts s { s with group := g } :=
  .blocks s s.engine g s.log s.reclaim rfl rfl rfl (fun j hj h => h.job j hj)
    (fun a ha h => h.assembly a ha) reserved rfl id (fun g hg h => h.grant g hg)
    fun c b hc hb h => h.copy c b hc hb

theorem Acts.logReclaim (s : State) (l : Log) (r : Reclaim) (segs : l.segs = s.log.segs)
    (device : s.log.device ≠ .mounting → l.device ≠ .mounting)
    (grant : ∀ g, l.grant = some g → SegInv s → g.record.small)
    (copy : ∀ c b, r.copy = some c → c.buffer = some b → SegInv s → b.small) :
    Acts s { s with log := l, reclaim := r } :=
  .blocks s s.engine s.group l r rfl rfl rfl (fun j hj h => h.job j hj)
    (fun a ha h => h.assembly a ha) (Nat.le_refl _) segs device grant copy

theorem Acts.log (s : State) (l : Log) (segs : l.segs = s.log.segs)
    (device : s.log.device ≠ .mounting → l.device ≠ .mounting)
    (grant : ∀ g, l.grant = some g → SegInv s → g.record.small) : Acts s { s with log := l } :=
  .logReclaim s l s.reclaim segs device grant fun c b hc hb h => h.copy c b hc hb

theorem Acts.reclaim (s : State) (r : Reclaim)
    (copy : ∀ c b, r.copy = some c → c.buffer = some b → SegInv s → b.small) :
    Acts s { s with reclaim := r } :=
  .logReclaim s s.log r rfl id (fun g hg h => h.grant g hg) copy

/-- The engine keeps the context, and keeps or drops the record and the assembly in hand. -/
def Engine.Keeps (e e' : Engine) : Prop :=
  (e'.ns = e.ns ∧ e'.mode = e.mode ∧ e'.watermark = e.watermark) ∧
    (e'.job = e.job ∨ e'.job = none) ∧ (e'.assembly = e.assembly ∨ e'.assembly = none)

/-- The log manager keeps the segment table and the device state, and keeps or drops the grant. -/
def Log.Keeps (l l' : Log) : Prop :=
  (l'.segs = l.segs ∧ l'.device = l.device) ∧ (l'.grant = l.grant ∨ l'.grant = none)

/-- The reclaim unit keeps or drops its copy. -/
def Reclaim.Keeps (r r' : Reclaim) : Prop := r'.copy = r.copy ∨ r'.copy = none

theorem Acts.engineKeeps (s : State) (e : Engine) (keeps : s.engine.Keeps e) :
    Acts s { s with engine := e } := by
  obtain ⟨⟨ns, mode, mark⟩, job, assembly⟩ := keeps
  refine .engine s e ns mode mark (fun j hj h => ?_) fun a ha h => ?_
  · rcases job with same | gone
    · exact h.job j (same ▸ hj)
    · simp [gone] at hj
  · rcases assembly with same | gone
    · exact h.assembly a (same ▸ ha)
    · simp [gone] at ha

theorem Acts.logReclaimKeeps (s : State) (l : Log) (r : Reclaim) (log : s.log.Keeps l)
    (reclaim : s.reclaim.Keeps r) : Acts s { s with log := l, reclaim := r } := by
  obtain ⟨⟨segs, device⟩, grant⟩ := log
  refine .logReclaim s l r segs (fun h => device ▸ h) (fun g hg h => ?_) fun c b hc hb h => ?_
  · rcases grant with same | gone
    · exact h.grant g (same ▸ hg)
    · simp [gone] at hg
  · rcases reclaim with same | gone
    · exact h.copy c b (same ▸ hc) hb
    · simp [gone] at hc

theorem Acts.logKeeps (s : State) (l : Log) (keeps : s.log.Keeps l) : Acts s { s with log := l } :=
  .logReclaimKeeps s l s.reclaim keeps (.inl rfl)

theorem Acts.reclaimKeeps (s : State) (r : Reclaim) (keeps : s.reclaim.Keeps r) :
    Acts s { s with reclaim := r } :=
  .logReclaimKeeps s s.log r ⟨⟨rfl, rfl⟩, .inl rfl⟩ keeps

/-- A request other than a record's program. -/
theorem Acts.askOther (s : State) (op : ArrayOp) (inner : op.ofMount = false)
    (other : ∀ loc r, op ≠ .programRecord loc r) : Acts s (Machine.ask op s) :=
  .ask s op inner fun loc r same => absurd same (other loc r)

/-- A grant's record stays within its bounds where another SN or tag is put in it. -/
theorem Record.small_congr {r r' : Record} (key : r'.key = r.key) (value : r'.value = r.value)
    (h : r.small) : r'.small := by
  unfold Record.small at *
  rw [key, value]
  exact h

/-- A record within the bounds of R2 and R3 fits an empty segment. -/
theorem Record.size_le_of_small {r : Record} (h : r.small) : r.size ≤ 16320 := by
  obtain ⟨key, value⟩ := h
  unfold Record.size recordSize roundUp4 Config.headerBytes
  omega

theorem acts_subLive (i n : Nat) (s : State) : Acts s (subLive i n s) :=
  .modSeg s i _ fun _ => ⟨id, id, fun _ h => Nat.le_trans (Nat.sub_le _ _) h⟩

theorem acts_markSuspect (i : Nat) (s : State) : Acts s (markSuspect i s) :=
  .modSeg s i _ fun _ => ⟨id, id, fun _ => id⟩

/-- A segment goes to a state other than OPEN. -/
theorem acts_setState (i : Nat) (st : SegState) (other : st ≠ .opened) (s : State) :
    Acts s (modSeg i (fun e => { e with state := st }) s) :=
  .modSeg s i _ fun _ => ⟨fun h => absurd h other, id, fun _ => id⟩

theorem acts_setPin (i : Nat) (pin : Bool) (s : State) :
    Acts s (modSeg i (fun e => { e with pin := pin }) s) :=
  .modSeg s i _ fun _ => ⟨id, id, fun _ => id⟩

theorem acts_retireSeg (i : Nat) (s : State) : Acts s (modSeg i SegEntry.retire s) :=
  .modSeg s i _ fun _ => ⟨nofun, fun _ => Nat.zero_le _, fun _ _ => Nat.le_refl 0⟩

theorem acts_pooled (i count : Nat) (s : State) : Acts s (modSeg i (fun e => e.pooled count) s) :=
  .modSeg s i _ fun _ => ⟨nofun, fun _ => Nat.zero_le _, fun _ _ => Nat.le_refl 0⟩

/-! ## Ends of requests -/

@[simp] theorem Engine.toIdle_job (e : Engine) : e.toIdle.job = none := rfl
@[simp] theorem Engine.toIdle_assembly (e : Engine) : e.toIdle.assembly = none := rfl
@[simp] theorem Engine.toIdle_ns (e : Engine) : e.toIdle.ns = e.ns := rfl
@[simp] theorem Engine.toIdle_mode (e : Engine) : e.toIdle.mode = e.mode := rfl
@[simp] theorem Engine.toIdle_watermark (e : Engine) : e.toIdle.watermark = e.watermark := rfl

theorem acts_moveDecided (waiting : List Out) (s : State) : Acts s (moveDecided waiting s) := by
  induction waiting generalizing s with
  | nil => exact .engineKeeps s _ (by simp [Engine.Keeps])
  | cons o rest ih =>
    unfold moveDecided
    split
    · rename_i h
      obtain ⟨free, quiet⟩ : slotFree s = true ∧ s.notices = [] := by simpa using h
      exact .trans (.enqueue s o free quiet) (ih _)
    · exact .engineKeeps s _ (by simp [Engine.Keeps])

theorem acts_settleReplies (s : State) : Acts s (settleReplies s) := by
  unfold settleReplies
  split
  · exact .engineKeeps s _ (by simp [Engine.Keeps])
  · exact .refl s

theorem acts_decide (replies : List Out) (s : State) : Acts s (decide_ replies s) :=
  .trans
    (.engineKeeps s _ (by simp [Engine.Keeps]))
    (.trans (acts_moveDecided replies _) (acts_settleReplies _))

theorem acts_endRequest (status : Status) (payload : Bytes) (s : State) :
    Acts s (endRequest status payload s) := by
  unfold endRequest
  split
  · exact acts_decide _ s
  · split <;> exact acts_decide _ s

theorem acts_failGroup (s : State) : Acts s (failGroup s) := by
  unfold failGroup
  split
  · exact .group s _ (Nat.le_refl _)
  · exact .refl s

/-! ## Owners.lean -/

theorem acts_buriedDrop (seg : Nat) (s : State) : Acts s (buriedDrop seg s) := .dirDrop s _

theorem acts_lostRemoval (ns : Nat) (key : Bytes) (version : Nat) (loc : Loc) (s : State) :
    Acts s (lostRemoval ns key version loc s) := by
  unfold lostRemoval
  split
  · split
    · exact .trans (.dirDrop s _) (.trans (acts_subLive _ _ _) (.raise _ _))
    · exact .refl s
  · exact .refl s

theorem acts_deadenPending (list : List Pending) (s : State) : Acts s (deadenPending list s) := by
  induction list generalizing s with
  | nil => exact .refl s
  | cons p rest ih =>
    unfold deadenPending
    split
    · exact .trans (acts_subLive _ _ s) (ih _)
    · exact ih s

theorem acts_dropGroup (s : State) : Acts s (dropGroup s) :=
  .trans (acts_deadenPending s.group.list s) (.group _ _ (by exact Nat.zero_le _))

theorem acts_groupLost (c : Copy) (s : State) : Acts s (groupLost c s) := by
  unfold groupLost
  split
  · exact .trans (acts_subLive c.loc.seg c.size s)
      (.trans (.group (subLive c.loc.seg c.size s) _ (by rfl))
        (.trans (acts_failGroup _) (.raise _ _)))
  · exact .refl s

/-! ## Placement.lean -/

theorem acts_jobGroupEffect (j : Job) (status : Status) (s : State) :
    Acts s (jobGroupEffect j status s) := by
  have returned : Acts s (returnReservation j s) := by
    unfold returnReservation
    split
    · exact .group s _ (List.erase_sublist.length_le)
    · exact .refl s
  unfold jobGroupEffect
  split
  · split
    · exact acts_failGroup s
    · exact acts_failGroup s
    · exact acts_failGroup s
    all_goals exact .refl s
  · split
    · exact acts_failGroup s
    · exact acts_failGroup s
    · exact acts_failGroup s
    all_goals exact .refl s
  · exact returned
  · exact .refl s

theorem acts_endJob (status : Status) (s : State) : Acts s (endJob status s) := by
  unfold endJob
  split
  · exact .refl s
  · exact .trans (.logReclaimKeeps s _ _ (by simp [Log.Keeps]) (by simp [Reclaim.Keeps]))
      (.trans (acts_jobGroupEffect _ _ _) (acts_endRequest _ _ _))

theorem acts_endTidy (s : State) : Acts s (endTidy s) := by
  unfold endTidy
  split
  · exact .trans (.reclaimKeeps s _ (by simp [Reclaim.Keeps]))
      (acts_endRequest _ _ _)
  · exact .refl s

theorem acts_stopPass (s : State) : Acts s (stopPass s) :=
  .trans (.logReclaimKeeps s _ _ (by simp [Log.Keeps]) (by simp [Reclaim.Keeps])) (acts_endTidy _)

/-- A grant given up names the record it had. -/
theorem Grant.record_giveUp {g g' : Grant} (h : g.giveUp = some g') : g'.record = g.record := by
  unfold Grant.giveUp at h
  split at h
  · cases h; rfl
  all_goals cases h

/-- The grant in force is given up. -/
theorem acts_giveUp {s : State} {g : Grant} (grant : s.log.grant = some g) :
    Acts s { s with log := { s.log with grant := g.giveUp } } :=
  .log s _ rfl id fun g' hg h => by rw [Grant.record_giveUp hg]; exact h.grant g grant

theorem acts_refuseEngine (s : State) : Acts s (refuseEngine s) := by
  unfold refuseEngine
  dsimp only
  split
  · rename_i g grant
    split
    · exact .trans (acts_giveUp grant) (acts_endJob _ _)
    · split
      · exact acts_endJob _ s
      · exact .refl s
  · split
    · exact acts_endJob _ s
    · exact .refl s

theorem acts_refuseCopy (s : State) : Acts s (refuseCopy s) := by
  unfold refuseCopy
  dsimp only
  split
  · rename_i g grant
    split
    · exact .trans (acts_giveUp grant) (acts_stopPass _)
    · split
      · exact acts_stopPass s
      · exact .refl s
  · split
    · exact acts_stopPass s
    · exact .refl s

theorem acts_enterReadOnly (cause : RoCause) (s : State) : Acts s (enterReadOnly cause s) := by
  unfold enterReadOnly
  split
  · have entered : Acts s { s with log := { s.log with device := .readOnly } } :=
      .log s _ rfl (fun _ => nofun) fun g hg h => h.grant g hg
    exact .trans entered (.trans (acts_refuseEngine _) (.trans (acts_refuseCopy _)
      (.trans (acts_failGroup _) (.raise _ _))))
  · exact .refl s

theorem acts_raiseRetired (seg : Nat) (cause : RetireCause) (s : State) :
    Acts s (raiseRetired seg cause s) := .raise s _

theorem acts_retirementTest (s : State) : Acts s (retirementTest s) := by
  unfold retirementTest
  split
  · exact acts_enterReadOnly _ s
  · exact .refl s

theorem acts_exhaustionTest (s : State) : Acts s (exhaustionTest s) := by
  unfold exhaustionTest
  split
  · exact acts_enterReadOnly _ s
  · exact .refl s

/-- A record is placed with the key and the value it was granted with. -/
theorem placedRecord_key (g : Grant) (s : State) : (placedRecord g s).key = g.record.key := by
  unfold placedRecord
  split
  · rfl
  · split <;> rfl

theorem placedRecord_value (g : Grant) (s : State) : (placedRecord g s).value = g.record.value := by
  unfold placedRecord
  split
  · rfl
  · split <;> rfl

theorem placedRecord_size (g : Grant) (s : State) : (placedRecord g s).size = g.record.size := by
  unfold Record.size
  rw [placedRecord_key, placedRecord_value]

theorem placedRecord_small {g : Grant} {s : State} (h : g.record.small) : (placedRecord g s).small :=
  Record.small_congr (placedRecord_key g s) (placedRecord_value g s) h

/-- A segment has room for a record that fits the head. -/
theorem fitsHead_used {segs : List SegEntry} {head n : Nat} (isHead : headOf segs = some head)
    (fits : fitsHead segs n = true) (used : (segAt segs head).used ≤ 16320) :
    (segAt segs head).used + n ≤ 16320 := by
  simp only [fitsHead, headFree, isHead, Config.recordArea, Bool.and_eq_true,
    decide_eq_true_eq] at fits
  omega

theorem segAt_used_le {s : State} (h : SegInv s) (i : Nat) : (segAt s.log.segs i).used ≤ 16320 := by
  unfold segAt
  rw [List.getD_eq_getElem?_getD]
  cases entry : s.log.segs[i]? with
  | none => exact Nat.zero_le _
  | some e => exact h.table.used e (List.mem_of_getElem? entry)

theorem acts_copyPlaced (record : Record) (loc : Loc) (s : State) :
    Acts s (copyPlaced record loc s) :=
  .reclaim s _ fun c b hc hb h => by
    obtain ⟨c', same, rfl⟩ := Option.map_eq_some_iff.1 hc
    exact h.copy c' b same hb

theorem acts_enginePlaced (takesSn : Bool) (s : State) : Acts s (enginePlaced takesSn s) :=
  .trans (.engineKeeps s { s.engine with state := .busy } (by simp [Engine.Keeps]))
    (.logReclaimKeeps _ _ _ (by simp [Log.Keeps]) (by simp [Reclaim.Keeps]))

/-- The program of the record just placed is asked for. -/
theorem acts_askProgram {s : State} {g : Grant} {loc : Loc} {r : Record}
    (grant : s.log.grant = some g) (record : g.record = r) :
    Acts s (ask (.programRecord loc r) s) :=
  .ask s _ rfl fun _ _ same h => by
    cases same
    exact record ▸ h.grant g grant

/-- A record within bounds is placed in a segment with the bytes free. -/
theorem acts_placeAt (g : Grant) (head : Nat) (s : State) (small : SegInv s → g.record.small)
    (fits : SegInv s → (segAt s.log.segs head).used + g.record.size ≤ 16320) :
    Acts s (placeAt g head s) := by
  have occupied := Acts.occupy s g head small fits
  unfold placeAt
  dsimp only
  split
  · exact .trans occupied (.trans (acts_copyPlaced _ _ _) (acts_askProgram rfl rfl))
  · have programmed := Acts.trans occupied
      (.trans (acts_enginePlaced (!g.retry) _)
        (acts_askProgram (loc := writeLoc head s) (r := placedRecord g s) rfl rfl))
    split
    · exact programmed
    · exact .trans programmed (acts_exhaustionTest _)

/-- The append point is granted to a record within bounds. -/
theorem acts_grant (s : State) (g : Grant) (small : SegInv s → g.record.small) :
    Acts s { s with log := { s.log with grant := some g } } :=
  .log s _ rfl id fun g' hg h => by
    cases hg
    exact small h

theorem acts_openHead (g : Grant) (s : State) (small : SegInv s → g.record.small) :
    Acts s (openHead g s) := by
  unfold openHead
  split
  · exact .trans (acts_grant s g small) (acts_enterReadOnly _ _)
  · split
    · exact .refl s
    · rename_i v _
      have opening : Acts s { s with log := { s.log with
          grant := some { g with stage := .opening v }, stamp := s.log.stamp + 1 } } :=
        .log s _ rfl id fun g' hg h => by
          cases hg
          exact small h
      exact .trans opening (.askOther _ _ rfl (by nofun))

theorem acts_placeOrOpen (g : Grant) (s : State) (small : SegInv s → g.record.small) :
    Acts s (placeOrOpen g s) := by
  unfold placeOrOpen
  split
  · rename_i head isHead
    split
    · rename_i fits
      exact acts_placeAt g head s small fun h => fitsHead_used isHead fits (segAt_used_le h head)
    · exact acts_openHead g s small
  · exact acts_openHead g s small

theorem acts_raiseSpaceLow (size : Nat) (s : State) : Acts s (raiseSpaceLow size s) := .raise s _

/-! ## Reclaim.lean -/

theorem acts_testBackground (s : State) : Acts s (testBackground s) := by
  unfold testBackground
  split
  · exact .reclaimKeeps s _ (by simp [Reclaim.Keeps])
  · split
    · exact .reclaimKeeps s _ (by simp [Reclaim.Keeps])
    · exact .refl s

theorem acts_takeAppendPoint {j : Job} {s : State} (job : s.engine.job = some j) :
    Acts s (takeAppendPoint j s) := by
  unfold takeAppendPoint
  split
  · exact acts_endJob _ s
  · exact acts_placeOrOpen _ s fun h => h.job j job

theorem acts_reexamine (s : State) : Acts s (reexamine s) := by
  unfold reexamine
  split
  · exact .refl s
  · rename_i j job
    split
    · split
      · dsimp only
        split
        · exact .trans (.reclaimKeeps s _ (by simp [Reclaim.Keeps])) (acts_takeAppendPoint job)
        · exact .logReclaimKeeps s _ _ (by simp [Log.Keeps]) (by simp [Reclaim.Keeps])
      · split
        · exact .refl s
        · exact .trans (acts_raiseSpaceLow _ s) (acts_endJob _ _)
    · exact .refl s

theorem acts_countPass (freed : Nat) (s : State) : Acts s (countPass freed s) := by
  unfold countPass
  split
  · exact .reclaimKeeps s _ (by simp [Reclaim.Keeps])
  · exact .refl s

theorem acts_tidyTest (s : State) : Acts s (tidyTest s) := by
  unfold tidyTest
  split
  · exact acts_endTidy s
  · exact .refl s

/-- A copy in hand that an owner names has not been read. -/
theorem buffer_of_mem_namedRecords {s : State} {c : Copy} (h : c ∈ namedRecords s) :
    c.buffer = none := by
  simp only [namedRecords, List.mem_append, List.mem_map] at h
  rcases h with (⟨_, _, rfl⟩ | ⟨_, _, rfl⟩) | ⟨_, _, rfl⟩ <;> rfl

/-- The lower of the record found so far and the next one, where that counts (R74). -/
def lowerOf (seg position : Nat) (best : Option Copy) (c : Copy) : Option Copy :=
  if c.loc.seg = seg ∧ position ≤ c.loc.off then
    match best with
    | some b => if c.loc.off < b.loc.off then some c else some b
    | none => some c
  else best

theorem lowestNamed_eq (seg position : Nat) (s : State) :
    lowestNamed seg position s = (namedRecords s).foldl (lowerOf seg position) none := rfl

/-- The lower of two records is one of them, and no higher than either. -/
theorem lowerOf_spec (seg position : Nat) (best : Option Copy) (c : Copy) :
    (∀ x, lowerOf seg position best c = some x →
      best = some x ∨ (x = c ∧ c.loc.seg = seg ∧ position ≤ c.loc.off)) ∧
    ∀ y, best = some y ∨ (y = c ∧ c.loc.seg = seg ∧ position ≤ c.loc.off) →
      ∃ x, lowerOf seg position best c = some x ∧ x.loc.off ≤ y.loc.off := by
  unfold lowerOf
  by_cases counts : c.loc.seg = seg ∧ position ≤ c.loc.off
  · cases best with
    | none => simp [counts]
    | some b =>
      by_cases lower : c.loc.off < b.loc.off
      · simp only [counts, lower]
        grind
      · simp only [counts, lower]
        grind
  · simp only [counts]
    grind

/-- What a scan of records for the lowest one finds, starting from one found before. -/
theorem foldl_lowerOf (seg position : Nat) (list : List Copy) (best : Option Copy) :
    (∀ x, list.foldl (lowerOf seg position) best = some x →
      best = some x ∨ (x ∈ list ∧ x.loc.seg = seg ∧ position ≤ x.loc.off)) ∧
    ∀ y, best = some y ∨ (y ∈ list ∧ y.loc.seg = seg ∧ position ≤ y.loc.off) →
      ∃ x, list.foldl (lowerOf seg position) best = some x ∧ x.loc.off ≤ y.loc.off := by
  induction list generalizing best with
  | nil => grind
  | cons c rest ih =>
    obtain ⟨found, least⟩ := ih (lowerOf seg position best c)
    obtain ⟨first, lower⟩ := lowerOf_spec seg position best c
    simp only [List.foldl_cons, List.mem_cons]
    refine ⟨fun x hx => ?_, fun y hy => ?_⟩
    · rcases found x hx with h | ⟨mem, counts⟩
      · rcases first x h with h | ⟨rfl, counts⟩
        · exact .inl h
        · exact .inr ⟨.inl rfl, counts⟩
      · exact .inr ⟨.inr mem, counts⟩
    · have headed (z : Copy) (hz : best = some z ∨ (z = c ∧ c.loc.seg = seg ∧ position ≤ c.loc.off)) :
          ∃ x, rest.foldl (lowerOf seg position) (lowerOf seg position best c) = some x ∧
            x.loc.off ≤ z.loc.off := by
        obtain ⟨w, hw, below⟩ := lower z hz
        obtain ⟨x, hx, least⟩ := least w (.inl hw)
        exact ⟨x, hx, Nat.le_trans least below⟩
      rcases hy with h | ⟨rfl | mem, counts⟩
      · exact headed y (.inl h)
      · exact headed y (.inr ⟨rfl, counts⟩)
      · exact least y (.inr ⟨mem, counts⟩)

/-- The walk's next record is named in the segment at or above the position, and no named one there
lies lower (R74). -/
theorem lowestNamed_spec {seg position : Nat} {s : State} {c : Copy}
    (h : lowestNamed seg position s = some c) :
    c ∈ namedRecords s ∧ c.loc.seg = seg ∧ position ≤ c.loc.off ∧
      ∀ d ∈ namedRecords s, d.loc.seg = seg → position ≤ d.loc.off → c.loc.off ≤ d.loc.off := by
  rw [lowestNamed_eq] at h
  obtain ⟨found, least⟩ := foldl_lowerOf seg position (namedRecords s) none
  obtain ⟨mem, inSeg, above⟩ := (found c h).resolve_left nofun
  refine ⟨mem, inSeg, above, fun d hd hseg habove => ?_⟩
  obtain ⟨x, hx, below⟩ := least d (.inr ⟨hd, hseg, habove⟩)
  rw [h] at hx
  cases hx
  exact below

/-- With no record to walk to, every named one of the segment lies below the position (R74). -/
theorem lowestNamed_none {seg position : Nat} {s : State} (h : lowestNamed seg position s = none) :
    ∀ d ∈ namedRecords s, d.loc.seg = seg → d.loc.off < position := by
  rw [lowestNamed_eq] at h
  intro d hd hseg
  by_contra above
  obtain ⟨x, hx, -⟩ := (foldl_lowerOf seg position (namedRecords s) none).2 d
    (.inr ⟨hd, hseg, Nat.le_of_not_lt above⟩)
  rw [h] at hx
  cases hx

section Weighed

variable (weigh : State → State) (weighed : ∀ s, Acts s (weigh s))
include weighed

theorem acts_completePassWith (freed : Nat) (s : State) : Acts s (completePassWith weigh freed s) :=
  .trans (.reclaimKeeps s s.reclaim.clearPass (.inr rfl)) (.trans (acts_countPass freed _)
    (.trans (acts_reexamine _) (.trans (acts_testBackground _) (.trans (acts_tidyTest _) (weighed _)))))

theorem acts_retireVictimWith (v : Nat) (cause : RetireCause) (s : State) :
    Acts s (retireVictimWith weigh v cause s) :=
  .trans (.askOther s _ rfl (by nofun)) (.trans (acts_retireSeg v _) (.trans (acts_buriedDrop v _)
    (.trans (acts_raiseRetired v cause _) (.trans (acts_retirementTest _)
      (acts_completePassWith weigh weighed 0 _)))))

theorem acts_leaveWalkWith (v : Nat) (s : State) : Acts s (leaveWalkWith weigh v s) := by
  unfold leaveWalkWith
  split
  · exact .reclaimKeeps s _ (by simp [Reclaim.Keeps])
  · split
    · exact acts_retireVictimWith weigh weighed v _ s
    · exact .trans (.reclaimKeeps s _ (by simp [Reclaim.Keeps])) (.askOther _ _ rfl (by nofun))

theorem acts_walkStepWith (s : State) : Acts s (walkStepWith weigh s) := by
  unfold walkStepWith
  split
  · exact .refl s
  · split
    · rename_i c lowest
      have unread := buffer_of_mem_namedRecords (lowestNamed_spec lowest).1
      have taken : Acts s { s with
          reclaim := { s.reclaim with copy := some c, position := c.loc.off + c.size } } :=
        .reclaim s _ fun c' b hc hb _ => by
          cases hc
          exact absurd hb (by rw [unread]; nofun)
      exact .trans taken (.askOther _ _ rfl (by nofun))
    · exact .trans (.reclaimKeeps s _ (by simp [Reclaim.Keeps])) (acts_leaveWalkWith weigh weighed _ _)

omit weighed in
theorem acts_startPass (v : Nat) (s : State) : Acts s (startPass v s) :=
  .trans (acts_setState v .reclaiming nofun s) (.reclaimKeeps _ _ (.inr rfl))

theorem acts_beginPassWith (s : State) : Acts s (beginPassWith weigh s) := by
  unfold beginPassWith
  split
  · exact .refl s
  · split
    · exact .trans (acts_startPass _ s) (acts_walkStepWith weigh weighed _)
    · exact .trans (acts_startPass _ s) (.askOther _ _ rfl (by nofun))

end Weighed

theorem acts_weighPassWithin (n : Nat) (s : State) : Acts s (weighPassWithin n s) := by
  induction n generalizing s with
  | zero => exact .refl s
  | succ n ih =>
    unfold weighPassWithin
    split
    · exact acts_beginPassWith _ ih s
    · exact .refl s

theorem acts_weighPass (s : State) : Acts s (weighPass s) := acts_weighPassWithin _ s

theorem acts_walkStep (s : State) : Acts s (walkStep s) := acts_walkStepWith _ acts_weighPass s

theorem acts_leaveWalk (v : Nat) (s : State) : Acts s (leaveWalk v s) :=
  acts_leaveWalkWith _ acts_weighPass v s

theorem acts_retireVictim (v : Nat) (cause : RetireCause) (s : State) :
    Acts s (retireVictim v cause s) := acts_retireVictimWith _ acts_weighPass v cause s

theorem acts_completePass (freed : Nat) (s : State) : Acts s (completePass freed s) :=
  acts_completePassWith _ acts_weighPass freed s

theorem acts_backgroundEvent (s : State) : Acts s (backgroundEvent s) :=
  .trans (acts_testBackground s) (acts_weighPass _)

theorem acts_releasePin (seg : Nat) (s : State) : Acts s (releasePin seg s) := by
  unfold releasePin
  dsimp only
  split
  · exact .trans (acts_setPin seg false s) (acts_leaveWalk seg _)
  · exact acts_setPin seg false s

/-! ## Arbiter.lean -/

theorem acts_waitForSpace (s : State) : Acts s (waitForSpace s) :=
  .trans (.engineKeeps s { s.engine with state := .waitingSpace } (by simp [Engine.Keeps]))
    (.reclaimKeeps _ _ (by simp [Reclaim.Keeps]))

theorem acts_needForSpace (j : Job) (s : State) : Acts s (needForSpace j s) := by
  unfold needForSpace
  split
  · exact .trans (acts_waitForSpace s) (acts_weighPass _)
  · exact .trans (acts_raiseSpaceLow _ s) (acts_endJob _ _)

theorem acts_attemptEngine (s : State) : Acts s (attemptEngine s) := by
  unfold attemptEngine
  dsimp only
  split
  · exact .logKeeps s _ (by simp [Log.Keeps])
  · rename_i j job
    refine .trans (.logKeeps s { s.log with engineWaits := false } (by simp [Log.Keeps])) ?_
    split
    · exact acts_endJob _ _
    · split
      · exact acts_endJob _ _
      · split
        · exact acts_placeOrOpen _ _ fun h => h.job j job
        · exact acts_needForSpace _ _

theorem acts_attemptCopyWith (record : Record) (retry : Bool) (s : State)
    (small : SegInv s → record.small) : Acts s (attemptCopyWith record retry s) := by
  unfold attemptCopyWith
  dsimp only
  split
  · exact .trans (.logKeeps s _ (by simp [Log.Keeps])) (acts_stopPass _)
  · split
    · exact acts_placeOrOpen _ s small
    · exact .trans (acts_grant s _ small) (acts_enterReadOnly _ _)

theorem acts_attemptCopy (s : State) : Acts s (attemptCopy s) := by
  unfold attemptCopy
  dsimp only
  refine .trans (.logKeeps s { s.log with copyWaits := false } (by simp [Log.Keeps])) ?_
  split
  · rename_i c copy
    split
    · rename_i record buffer
      exact acts_attemptCopyWith _ _ _ fun h => h.copy c record copy buffer
    · exact .refl _
  · exact .refl _

theorem acts_thenCopy (s : State) : Acts s (thenCopy s) := by
  unfold thenCopy
  split
  · exact acts_attemptCopy s
  · exact .refl s

theorem acts_thenEngine (s : State) : Acts s (thenEngine s) := by
  unfold thenEngine
  split
  · exact acts_attemptEngine s
  · exact .refl s

theorem acts_grantNext (s : State) : Acts s (grantNext s) := by
  have both := Acts.trans (acts_attemptEngine s) (acts_thenCopy _)
  have other := Acts.trans (acts_attemptCopy s) (acts_thenEngine _)
  unfold grantNext
  split
  · exact .refl s
  · split
    · split
      · exact both
      · exact other
    · split
      · exact both
      · split
        · exact other
        · exact .refl s

theorem acts_startJob (j : Job) (s : State) (small : SegInv s → j.record.small) :
    Acts s (startJob j s) :=
  .engine s _ rfl rfl rfl
    (fun j' hj h => by
      cases hj
      exact small h)
    nofun

theorem acts_handOver (j : Job) (s : State) (small : SegInv s → j.record.small) :
    Acts s (handOver j s) := by
  unfold handOver
  dsimp only
  refine .trans (acts_startJob j s small) ?_
  split
  · exact acts_attemptEngine _
  · split
    · exact acts_endJob _ _
    · exact .logKeeps _ _ (by simp [Log.Keeps])

theorem acts_claimCopy (s : State) : Acts s (claimCopy s) := by
  unfold claimCopy
  split
  · exact acts_stopPass s
  · split
    · exact acts_attemptCopy s
    · exact .logKeeps s _ (by simp [Log.Keeps])

/-- A retry of the record the grant in force names. -/
theorem acts_attemptRetry (g : Grant) (s : State) (small : SegInv s → g.record.small) :
    Acts s (attemptRetry g s) := by
  unfold attemptRetry
  split
  · exact acts_attemptCopyWith _ _ s small
  · split
    · exact acts_openHead _ s small
    · exact .trans (.logKeeps s _ (by simp [Log.Keeps])) (acts_endJob _ _)


end Sys2Proof.Machine
end

section
/-!
PROOFS. What requests, streams and completions do, in the primitives of `Acts`.
-/

namespace Sys2Proof.Machine

open Sys2Proof

/-! ## Notices -/

/-- Notices move into the reply queue and change nothing but it and their set. -/
theorem moveNotices_frame (pending : List Notice) (s : State) :
    ∃ replies seq notices, moveNotices pending s =
      { s with replies := replies, replySeq := seq, notices := notices } := by
  induction pending generalizing s with
  | nil => exact ⟨_, _, _, rfl⟩
  | cons n rest ih =>
    unfold moveNotices
    split
    · obtain ⟨replies, seq, notices, h⟩ := ih (enqueue n.out s)
      exact ⟨replies, seq, notices, h⟩
    · exact ⟨_, _, _, rfl⟩

/-- A notice raised changes nothing but the reply queue and the notice set. -/
theorem raise_frame (n : Notice) (s : State) :
    ∃ replies seq notices, raise n s =
      { s with replies := replies, replySeq := seq, notices := notices } :=
  moveNotices_frame _ { s with notices := addNotice n s.notices }

theorem raise_prot (n : Notice) (s : State) : (raise n s).prot = s.prot := by
  obtain ⟨_, _, _, h⟩ := raise_frame n s
  rw [h]

/-! ## Streams -/

/-- The engine goes on with its stream, or ends it. -/
theorem Acts.stream (s : State) (stream : Option Stream) :
    Acts s { s with engine := { s.engine with stream := stream } } :=
  .engineKeeps s _ (by simp [Engine.Keeps])

theorem acts_toIdle (s : State) : Acts s { s with engine := s.engine.toIdle } :=
  .engineKeeps s _ (by simp [Engine.Keeps])

theorem acts_offerChunk (s : State) : Acts s (offerChunk s) := by
  unfold offerChunk
  split
  · split
    · split
      · rename_i h
        obtain ⟨free, quiet⟩ : slotFree s = true ∧ s.notices = [] := by simpa using h
        dsimp only
        split
        · exact .trans (.enqueue s _ free quiet) (.trans (acts_toIdle _) (acts_releasePin _ _))
        · exact .trans (.enqueue s _ free quiet)
            (.trans (.stream _ _) (.askOther _ _ rfl (by nofun)))
      · exact .refl s
    · exact .refl s
  · exact .refl s

theorem acts_chunkReady (data : Bytes) (s : State) : Acts s (chunkReady data s) := by
  unfold chunkReady
  split
  · exact .trans (.stream s _) (acts_offerChunk _)
  · exact .refl s

theorem acts_streamCorrupt (st : Stream) (ns : Nat) (s : State) : Acts s (streamCorrupt st ns s) :=
  .trans (.stream s none) (.trans (acts_releasePin _ _)
    (.trans (acts_lostRemoval _ _ _ _ _) (acts_endRequest _ _ _)))

theorem acts_firstReadDone (ok : Bool) (loc : Loc) (s : State) : Acts s (firstReadDone ok loc s) := by
  unfold firstReadDone
  split
  · split
    · split
      · exact acts_chunkReady _ s
      · exact acts_streamCorrupt _ _ s
    · exact acts_streamCorrupt _ _ s
  · exact .refl s

theorem acts_chunkReadDone (loc : Loc) (s : State) : Acts s (chunkReadDone loc s) := by
  unfold chunkReadDone
  split
  · split
    · exact acts_chunkReady _ s
    · exact .refl s
  · exact .refl s

theorem acts_cancelStream (st : Stream) (s : State) : Acts s (cancelStream st s) :=
  .trans (.stream s none) (.trans (.dropGetReads _)
    (.trans (acts_releasePin _ _) (acts_endRequest _ _ _)))

theorem acts_getFirstReadDone (ok : Bool) (s : State) : Acts s (getFirstReadDoneEffect ok s) := by
  unfold getFirstReadDoneEffect
  split
  · dsimp only
    split
    · exact .trans (.completeOp s) (acts_firstReadDone ok _ _)
    · exact .completeOp s
  · exact .refl s

theorem acts_chunkReadDoneEffect (s : State) : Acts s (chunkReadDoneEffect s) := by
  unfold chunkReadDoneEffect
  split
  · dsimp only
    split
    · exact .trans (.completeOp s) (acts_chunkReadDone _ _)
    · exact .completeOp s
  · exact .refl s

/-! ## CANCEL -/

theorem acts_cancelJob (j : Job) (s : State) : Acts s (cancelJob j s) := by
  unfold cancelJob
  split
  · exact .refl s
  · split
    · rename_i g grant
      split
      · split
        · exact .trans (acts_giveUp grant) (acts_endJob _ _)
        · exact .refl s
      · exact acts_endJob _ s
    · exact acts_endJob _ s

/-- CANCEL of a request whose TIDY runs or whose record is in hand. -/
theorem acts_cancelBusy (s : State) :
    Acts s (if tidyRunning s then
      { s with reclaim := { s.reclaim with tidyRemaining := 0, tidyCancelled := true } }
    else match s.engine.job with
      | some j => cancelJob j s
      | none => s) := by
  split
  · exact .reclaimKeeps s _ (.inl rfl)
  · split
    · exact acts_cancelJob _ s
    · exact .refl s

theorem acts_cancelRequest (s : State) : Acts s (cancelRequest s) := by
  unfold cancelRequest
  split
  · exact acts_endRequest _ _ s
  · split
    · exact acts_cancelStream _ s
    · exact .refl s
  · exact acts_cancelBusy s
  · exact acts_cancelBusy s
  · exact .refl s
  · exact .refl s

/-! ## Requests -/

theorem acts_startRequest (f : Frame) (s : State) : Acts s (startRequest f s) :=
  .engineKeeps s _ (by simp [Engine.Keeps])

/-- A request that is started and refused. -/
theorem acts_refused (f : Frame) (status : Status) (payload : Bytes) (s : State) :
    Acts s (endRequest status payload (startRequest f s)) :=
  .trans (acts_startRequest f s) (acts_endRequest _ _ _)

theorem acts_refusalGroupEffect (status : Status) (s : State) :
    Acts s (refusalGroupEffect status s) := by
  unfold refusalGroupEffect
  split
  · exact acts_failGroup s
  · exact acts_failGroup s
  · exact acts_failGroup s
  · exact .refl s

theorem acts_handleData (f : Frame) (s : State) : Acts s (handleData f s) := by
  unfold handleData
  dsimp only
  split <;> exact acts_refused f _ _ s

/-- The key of a DELETE is within R2. -/
theorem parseDelete_key {payload key : Bytes} {expected : Nat}
    (h : parseDelete payload = some (expected, key)) : key.length ≤ 32 := by
  unfold parseDelete at h
  split at h
  · split at h
    · rename_i fits
      cases h
      have := (keyLengthOk_iff _).1 fits.1
      omega
    · cases h
  · cases h

theorem acts_handleDelete (f : Frame) (s : State) : Acts s (handleDelete f s) := by
  unfold handleDelete
  dsimp only
  split
  · exact acts_refused f _ _ s
  · rename_i parsed
    split
    · exact .trans (acts_startRequest f s)
        (.trans (acts_refusalGroupEffect _ _) (acts_endRequest _ _ _))
    · exact .trans (acts_startRequest f s)
        (acts_handOver _ _ fun _ => ⟨parseDelete_key parsed, Nat.zero_le _⟩)

theorem acts_handleGet (f : Frame) (s : State) : Acts s (handleGet f s) := by
  unfold handleGet
  dsimp only
  split
  · exact acts_refused f _ _ s
  · split
    · exact acts_refused f _ _ s
    · split
      · exact .trans (acts_startRequest f s) (.trans (acts_setPin _ true _)
          (.trans (.engineKeeps _ _ (by simp [Engine.Keeps])) (.askOther _ _ rfl (by nofun))))
      · exact acts_refused f _ _ s

theorem acts_handleStat (f : Frame) (s : State) : Acts s (handleStat f s) := by
  unfold handleStat
  dsimp only
  split <;> exact acts_refused f _ _ s

theorem acts_handleList (f : Frame) (s : State) : Acts s (handleList f s) := by
  unfold handleList
  dsimp only
  split <;> exact acts_refused f _ _ s

theorem acts_handleBegin (f : Frame) (s : State) : Acts s (handleBegin f s) := by
  unfold handleBegin
  dsimp only
  split_ifs
  · exact acts_refused f _ _ s
  · exact acts_refused f _ _ s
  · exact acts_refused f _ _ s
  · exact .trans (acts_startRequest f s)
      (.trans (.group _ _ (by exact Nat.le_refl _)) (acts_endRequest _ _ _))

theorem acts_handleCommit (f : Frame) (s : State) : Acts s (handleCommit f s) := by
  unfold handleCommit
  dsimp only
  split
  · exact acts_refused f _ _ s
  · split
    · exact acts_refused f _ _ s
    · split
      · exact acts_refused f _ _ s
      · exact acts_refused f _ _ s
      · split
        · exact .trans (acts_startRequest f s)
            (.trans (.group _ _ (by exact Nat.zero_le _)) (acts_endRequest _ _ _))
        · exact .trans (acts_startRequest f s)
            (acts_handOver _ _ fun _ => ⟨Nat.zero_le _, by simp [newRecord, le]⟩)

theorem acts_declineGroupCopy (c : Copy) (s : State) : Acts s (declineGroupCopy c s) := by
  unfold declineGroupCopy
  split
  · rename_i unread
    refine .reclaim s _ fun c' b hc hb _ => ?_
    cases hc
    exact absurd hb (by rw [unread]; nofun)
  · dsimp only
    refine .trans (.logReclaim s { s.log with
        grant := (match s.log.grant with
          | some g => if g.unplaced .reclaim then g.giveUp else some g
          | none => none), copyWaits := false } { s.reclaim with copy := none }
      rfl id (fun g hg h => ?_) (by nofun)) (acts_walkStep _)
    dsimp only at hg
    split at hg
    · rename_i g' grant
      split at hg
      · exact Grant.record_giveUp hg ▸ h.grant g' grant
      · cases hg
        exact h.grant g grant
    · cases hg

theorem acts_handleDiscard (f : Frame) (s : State) : Acts s (handleDiscard f s) := by
  unfold handleDiscard
  dsimp only
  split
  · exact acts_refused f _ _ s
  · split
    · have dropped := Acts.trans (acts_startRequest f s) (.trans (acts_dropGroup _)
        (acts_endRequest .ok [byteOf s.group.list.length] _))
      split
      · exact .trans dropped (acts_declineGroupCopy _ _)
      · exact dropped
    · exact acts_refused f _ _ s

theorem acts_handleSpace (f : Frame) (s : State) : Acts s (handleSpace f s) := by
  unfold handleSpace
  dsimp only
  split <;> exact acts_refused f _ _ s

theorem acts_handleTidy (f : Frame) (s : State) : Acts s (handleTidy f s) := by
  unfold handleTidy
  dsimp only
  split
  · exact acts_refused f _ _ s
  · rename_i n _
    split
    · exact acts_refused f _ _ s
    · refine .trans (acts_startRequest f s)
        (.trans (.engineKeeps _ { (startRequest f s).engine with state := .busy } ?_)
          (.trans (.reclaimKeeps _ { s.reclaim with
            tidyRemaining := n, tidyDone := 0, tidyFreed := 0, tidyCancelled := false } ?_) ?_))
      · simp [Engine.Keeps]
      · exact .inl rfl
      · split
        · exact acts_endTidy _
        · exact acts_weighPass _

theorem acts_handleFormat (f : Frame) (s : State) : Acts s (handleFormat f s) := by
  unfold handleFormat
  dsimp only
  split
  · exact acts_refused f _ _ s
  · split
    · exact acts_refused f _ _ s
    · exact .trans (acts_startRequest f s)
        (acts_handOver _ _ fun _ => ⟨Nat.zero_le _, Nat.zero_le _⟩)

/-- A settings record is within bounds where its value is (R129). -/
theorem settingRecord_small (id : Byte) {value : Bytes} (short : value.length ≤ 4096) :
    (settingRecord id value).small := ⟨by simp [settingRecord, newRecord], short⟩

theorem acts_settingRequest (own : Bool) (id : Byte) (value : Bytes) (s : State)
    (short : value.length ≤ 4096) : Acts s (settingRequest own id value s) := by
  unfold settingRequest
  split
  · exact acts_endRequest _ _ s
  · split
    · exact acts_endRequest _ _ s
    · exact acts_handOver _ s fun _ => settingRecord_small id short

/-- A request that asks for a settings write. -/
theorem acts_settingRequest_started (f : Frame) (own : Bool) (id : Byte) (value : Bytes) (s : State)
    (short : value.length ≤ 4096) : Acts s (settingRequest own id value (startRequest f s)) :=
  .trans (acts_startRequest f s) (acts_settingRequest own id value _ short)

theorem acts_handleSetLimit (f : Frame) (s : State) : Acts s (handleSetLimit f s) := by
  unfold handleSetLimit
  dsimp only
  split
  · exact acts_refused f _ _ s
  · exact acts_settingRequest_started f _ _ _ s (by simp [le])

theorem acts_handlePersist (f : Frame) (s : State) : Acts s (handlePersist f s) := by
  unfold handlePersist
  dsimp only
  split
  · exact acts_refused f _ _ s
  · exact acts_settingRequest_started f _ _ _ s (by simp)

theorem acts_handleSetPassphrase (f : Frame) (s : State) : Acts s (handleSetPassphrase f s) := by
  unfold handleSetPassphrase
  dsimp only
  split
  · exact acts_refused f _ _ s
  · rename_i bytes parsed
    have sixteen : bytes.length = 16 := by
      unfold parsePassphrase at parsed
      split at parsed
      · cases parsed
        assumption
      · cases parsed
    exact acts_settingRequest_started f _ _ _ s (by omega)

theorem acts_handleSetPolicy (f : Frame) (s : State) : Acts s (handleSetPolicy f s) := by
  unfold handleSetPolicy
  dsimp only
  split
  · exact acts_refused f _ _ s
  · exact acts_settingRequest_started f _ _ _ s (by simp)

theorem acts_handleFinalize (f : Frame) (s : State) : Acts s (handleFinalize f s) := by
  unfold handleFinalize
  dsimp only
  split
  · exact acts_refused f _ _ s
  · exact acts_settingRequest_started f _ _ _ s (by simp)

theorem acts_handleProtectStatus (f : Frame) (s : State) : Acts s (handleProtectStatus f s) := by
  unfold handleProtectStatus
  dsimp only
  split <;> exact acts_refused f _ _ s

theorem acts_handleIdent (f : Frame) (s : State) : Acts s (handleIdent f s) := by
  unfold handleIdent
  dsimp only
  split <;> exact acts_refused f _ _ s

theorem acts_handleUnknown (f : Frame) (s : State) : Acts s (handleUnknown f s) :=
  .trans (acts_startRequest f s) (acts_decide _ _)

/-! ## Completions outside mount, behind the claim of R52 -/

theorem acts_endGrant (s : State) : Acts s (endGrant s) := .logKeeps s _ (by simp [Log.Keeps])

theorem acts_engineReply (j : Job) (r : Record) (before s : State) :
    Acts s (engineReply j r before s) := by
  unfold engineReply
  split
  · exact acts_endRequest _ _ s
  · exact acts_endRequest _ _ s
  · split
    · exact acts_endJob _ s
    · exact acts_endRequest _ _ s
  · split
    · exact acts_endRequest _ _ s
    · exact .refl s
  · split
    · exact acts_endRequest _ _ s
    · exact .refl s
  · split
    · exact acts_endRequest _ _ s
    · exact .refl s

theorem mem_of_settingOf {settings : List Setting} {id : Byte} {t : Setting}
    (h : settingOf settings id = some t) : t ∈ settings := List.mem_of_find?_eq_some h

theorem acts_nextRewrite (marker done : Nat) (rest : List Byte) (s : State) :
    Acts s (nextRewrite marker done rest s) := by
  induction rest with
  | nil => exact .refl s
  | cons id more ih =>
    unfold nextRewrite
    split
    · rename_i t present
      exact acts_handOver _ s fun h =>
        settingRecord_small id (h.settings t (mem_of_settingOf present))
    · exact ih

theorem acts_engineNext (j : Job) (r : Record) (s : State) : Acts s (engineNext j r s) := by
  unfold engineNext
  split
  · exact acts_nextRewrite _ _ _ s
  · exact acts_nextRewrite _ _ _ s
  all_goals exact .refl s

/-- A placement is over: the grant ends, the thresholds are tested and the next claimant is granted. -/
theorem acts_placementEnd (s : State) : Acts s (grantNext (backgroundEvent (endGrant s))) :=
  .trans (acts_endGrant s) (.trans (acts_backgroundEvent _) (acts_grantNext _))

theorem acts_attemptFailed {g : Grant} {s : State} (grant : s.log.grant = some g) :
    Acts s (attemptFailed g s) := by
  unfold attemptFailed
  split
  · exact .trans (acts_endGrant s) (acts_endJob _ _)
  · split
    · exact .trans (acts_grant s { g with stage := .choosing } fun h => h.grant g grant)
        (acts_enterReadOnly _ _)
    · exact .trans (acts_endGrant s) (acts_stopPass _)

theorem acts_programFailed {g : Grant} {s : State} (loc : Loc) (grant : s.log.grant = some g) :
    Acts s (programFailed g loc s) := by
  unfold programFailed
  dsimp only
  refine .trans (acts_markSuspect loc.seg s) (.trans ?_ (acts_grantNext _))
  split
  · exact acts_attemptFailed (s := markSuspect loc.seg s) grant
  · exact acts_attemptRetry g _ fun h => h.grant g grant

theorem acts_askFilled (old : Option Nat) (s : State) : Acts s (askFilled old s) := by
  unfold askFilled
  split
  · exact .askOther s _ rfl (by nofun)
  · exact .refl s

/-- An entry after a change of one entry. -/
theorem segAt_modify (segs : List SegEntry) (i k : Nat) (f : SegEntry → SegEntry) :
    segAt (segs.modify i f) k =
      if i = k ∧ k < segs.length then f (segAt segs k) else segAt segs k := by
  unfold segAt
  rw [List.getD_eq_getElem?_getD, List.getD_eq_getElem?_getD, List.getElem?_modify]
  by_cases inside : k < segs.length
  · by_cases same : i = k <;> simp [inside, same]
  · simp [inside]

/-- A segment just opened has no bytes used; nor has one that is not in the table. -/
theorem changeHead_used (v stamp : Nat) (s : State) :
    (segAt (changeHead v stamp s).log.segs v).used = 0 := by
  unfold changeHead
  dsimp only [modSeg]
  rw [segAt_modify]
  split_ifs with inside
  · rfl
  · rw [segAt, List.getD_eq_getElem?_getD, List.getElem?_eq_none (by simpa using inside)]
    rfl

theorem acts_openedSucceeded (v stamp : Nat) (s : State) : Acts s (openedSucceeded v stamp s) := by
  unfold openedSucceeded
  dsimp only
  refine .trans (.changeHead s v stamp)
    (.trans ?_ (.trans (acts_askFilled _ _) (acts_grantNext _)))
  split
  · rename_i g grant
    split
    · exact acts_endGrant _
    · refine acts_placeAt g v _ (fun h => h.grant g grant) fun h => ?_
      rw [changeHead_used, Nat.zero_add]
      exact Record.size_le_of_small (h.grant g grant)
  · exact .refl _

theorem acts_chooseAgain {g : Grant} {s : State} (grant : s.log.grant = some g) :
    Acts s (chooseAgain g s) := by
  unfold chooseAgain
  split
  · split
    · exact acts_attemptRetry g s fun h => h.grant g grant
    · exact .trans (acts_endGrant s) (acts_attemptEngine _)
  · exact acts_attemptCopyWith _ _ s fun h => h.grant g grant

/-- A segment whose OPENED mark failed is retired, and the thresholds are tested (R53, R85). -/
def headRetired (v : Nat) (s : State) : State :=
  backgroundEvent (retirementTest
    (raiseRetired v .markFailure (modSeg v SegEntry.retire (ask (.retiredMark v .logManager) s))))

theorem acts_headRetired (v : Nat) (s : State) : Acts s (headRetired v s) :=
  .trans (.askOther s (.retiredMark v .logManager) rfl (by nofun))
    (.trans (acts_retireSeg v _) (.trans (acts_raiseRetired v .markFailure _)
      (.trans (acts_retirementTest _) (acts_backgroundEvent _))))

/-- What becomes of the record whose head could not be opened (R53). -/
def headFailedNext (s : State) : State :=
  match s.log.grant with
  | some g => if g.abandoned || decide (s.log.device ≠ .ready) then endGrant s else chooseAgain g s
  | none => s

theorem openedFailed_eq (v : Nat) (s : State) :
    openedFailed v s = grantNext (headFailedNext (headRetired v s)) := by
  unfold openedFailed headRetired
  dsimp only
  generalize backgroundEvent _ = u
  rfl

theorem acts_headFailedNext (s : State) : Acts s (headFailedNext s) := by
  unfold headFailedNext
  split
  · rename_i g grant
    split
    · exact acts_endGrant _
    · exact acts_chooseAgain grant
  · exact .refl _

theorem acts_openedFailed (v : Nat) (s : State) : Acts s (openedFailed v s) := by
  rw [openedFailed_eq]
  exact .trans (acts_headRetired v s) (.trans (acts_headFailedNext _) (acts_grantNext _))

theorem acts_beginWalk (v : Nat) (s : State) : Acts s (beginWalk v s) := by
  unfold beginWalk
  split
  · exact acts_walkStep s
  · exact .refl s

theorem acts_clearCopy (s : State) : Acts s (clearCopy s) :=
  .trans (.reclaimKeeps s _ (.inr rfl)) (acts_walkStep _)

theorem acts_bufferCopy (c : Copy) (r : Record) (s : State) (small : SegInv s → r.small) :
    Acts s (bufferCopy c r s) :=
  .trans
    (.reclaim s { s.reclaim with copy := some { c with buffer := some r } } fun c' b hc hb h => by
      cases hc
      cases hb
      exact small h)
    (acts_claimCopy _)

theorem mem_of_settingMatch {c : Copy} {s : State} {t : Setting} (h : settingMatch c s = some t) :
    t ∈ s.prot.settings := by
  unfold settingMatch at h
  split at h
  · rename_i present
    split at h
    · cases h
      exact mem_of_settingOf present
    · cases h
  · cases h

theorem acts_copyLost (c : Copy) (s : State) : Acts s (copyLost c s) := by
  unfold copyLost
  split
  · exact .trans (acts_lostRemoval _ _ _ _ s) (acts_clearCopy _)
  · exact .trans (acts_groupLost c s) (acts_clearCopy _)
  · split
    · rename_i t named
      refine .trans (.raise s _) (acts_bufferCopy c _ _ fun h => settingRecord_small _ ?_)
      exact h.settings t (by rw [raise_prot]; exact mem_of_settingMatch named)
    · exact acts_clearCopy s

/-- A record read from the array is within its bounds. -/
theorem small_of_recordAt {s : State} {loc : Loc} {r : Record} (h : SegInv s)
    (read : recordAt s loc = some r) : r.small := by
  unfold recordAt slotAt at read
  split at read
  · rename_i t found
    have mem := List.mem_of_find?_eq_some found
    unfold arraySeg at mem
    rw [List.getD_eq_getElem?_getD] at mem
    cases seg : s.array[loc.seg]? with
    | none => simp [seg, ArraySeg.blank] at mem
    | some a =>
      rw [seg] at mem
      exact h.array a (List.mem_of_getElem? seg) t mem r read
  · cases read

theorem acts_copyReadDone (ok : Bool) (s : State) : Acts s (copyReadDoneEffect ok s) := by
  unfold copyReadDoneEffect
  split
  · dsimp only
    refine .trans (.completeOp s) ?_
    split
    · split
      · exact acts_clearCopy _
      · split
        · rename_i loc _ _ _ _ _ _ r read
          split
          · refine acts_bufferCopy _ r _ fun h => small_of_recordAt (loc := loc) h ?_
            have same := (sameOutside_completeOp s).array
            unfold recordAt slotAt arraySeg at read ⊢
            rw [same]
            exact read
          · exact acts_copyLost _ _
        · exact acts_copyLost _ _
    · exact .refl _
  · exact .refl s

end Sys2Proof.Machine
end

section
/-!
PROOFS. What one command does, as a chain of primitives around those of `Acts`: the link's and the lines'
changes, the context, the guards, reservations, the array and mount. `Works may s t` also says which of
the three kinds of change that a command may be barred from it had to be allowed.
-/

namespace Sys2Proof.Machine

open Sys2Proof

/-- Changes that not every command makes: of the request context, of the array, and of the blocks that
stand as after reset while the device is MOUNTING. -/
inductive Change
  | context | array | blocks

/-- The primitive changes of a command, but for the resets and the claims of R52. -/
inductive Works (may : Change → Prop) : State → State → Prop
  | refl (s : State) : Works may s s
  | trans {s t u : State} : Works may s t → Works may t u → Works may s u
  | acts {s t : State} (blocks : may .blocks) (acts : Acts s t) : Works may s t
  | link (s : State) (sel : Bool) (port : Port) (inbound : List Frame)
      (room : s.inbound.length ≤ 8 → inbound.length ≤ 8) :
      Works may s { s with sel := sel, port := port, inbound := inbound }
  | lines (s : State) (powered rst : Bool) (free : Nat) :
      Works may s { s with powered := powered, rst := rst, free := free }
  | freed {s : State} {r : Reply} {rest : List Reply} (blocks : may .blocks)
      (head : s.replies = r :: rest) : Works may s (drainNotices { s with replies := rest })
  | context (s : State) (ns : Nat) (mode : ReplyMode) (mark : Nat) (blocks : may .blocks)
      (allowed : may .context) (ns_le : ns ≤ 7) (mark_le : mark ≤ 7) :
      Works may s { s with engine := { s.engine with ns := ns, mode := mode, watermark := mark } }
  | guards (s : State) (locks downs : Byte) (gate : Bool) (fails : Nat) (blocks : may .blocks)
      (held : downs &&& s.prot.lockdowns = s.prot.lockdowns)
      (fails_le : s.prot.unlockFails ≤ 8 → fails ≤ 8) :
      Works may s { s with prot := { s.prot with
        sessionLocks := locks, lockdowns := downs, gateOpen := gate, unlockFails := fails } }
  | reserve (s : State) (ns : Nat) (key : Bytes) (blocks : may .blocks)
      (room : s.dir.length + s.group.reserved.length < 1024) :
      Works may s (takeReservation ns key s)
  | array (s : State) (array : List ArraySeg) (free : Nat) (allowed : may .array)
      (small : SegInv s → ∀ a ∈ array, ∀ t ∈ a.slots, ∀ r, t.record = some r → r.small) :
      Works may s { s with array := array, free := free }
  | ended (s : State) (queue : s.ctrl.queue = []) (held : s.ctrl.held = [])
      (paused : s.ctrl.paused = none) : Works may s (completeOp s)
  | mount (s : State) (m : Mount) (op : Option ArrayOp)
      (inner : ∀ o, op = some o → o.ofMount = true) (order : DirInv s → ordered m.dir)
      (table : SegInv s → MountTableInv m op) : Works may s (mountAsk m op s)

/-- What a reset leaves: the part held, or mount started (R108). -/
inductive Resets (s : State) : State → Prop
  | held (kind stated : ResetKind) (powered rst : Bool) :
      Resets s { resetBlocks kind s with resetKind := stated, powered := powered, rst := rst }
  | started (kind : ResetKind) : Resets s (resetPart kind s)

/-- The claims of R52, and of the end of mount. -/
inductive Claims (s : State) : State → Prop
  | engine {loc : Loc} {r : Record} {g : Grant} {j : Job}
      (cur : s.ctrl.cur = some (.programRecord loc r)) (grant : s.log.grant = some g)
      (claimant : g.claimant = .engine) (job : s.engine.job = some j) :
      Claims s (engineClaim j g.record loc (completeOp (writeSlot loc r true s)))
  | copy {loc : Loc} {r : Record} {g : Grant} {c : Copy}
      (cur : s.ctrl.cur = some (.programRecord loc r)) (grant : s.log.grant = some g)
      (claimant : g.claimant = .reclaim) (copy : s.reclaim.copy = some c) :
      Claims s (relocate c loc (completeOp (writeSlot loc r true s)))
  | install {m : Mount} (mount : s.mount = some m) (finished : m.phase = .finished) :
      Claims s (install m s)

/-- A command works, and may end in a reset. -/
inductive Handles (may : Change → Prop) (s t : State) : Prop
  | works (works : Works may s t) : Handles may s t
  | resets {u : State} (works : Works may s u) (allowed : may .array) (resets : Resets u t) :
      Handles may s t

theorem Works.handles {may : Change → Prop} {s t u : State} (h : Works may s t)
    (k : Handles may t u) : Handles may s u := by
  rcases k with k | ⟨k, allowed, resets⟩
  · exact .works (.trans h k)
  · exact .resets (.trans h k) allowed resets

/-- The commands that change the array (R43, R44, R58). -/
def changesArray (c : Instr) : Prop :=
  match c with
  | .powerOn | .powerLoss | .rstAsserted .full | .rstAsserted .between | .reset
  | .recordProgramDone _ | .openedMarkDone _ | .filledMarkDone _ | .reclaimMarkDone _
  | .eraseMarkDone _ | .eraseDone _ | .erasedMarkDone _ | .retiredMarkDone _
  | .mountFilledMarkDone _ | .mountEraseDone _ | .mountErasedMarkDone _ | .mountRetiredMarkDone _
  | .mountOpenedMarkDone _ => True
  | _ => False

/-- What a command may change in a state. A TAKE may set a frame going that waits behind an INCOMPLETE
reply (R24). -/
def MayChange (c : Instr) (s : State) : Change → Prop
  | .context => c = .select ∨
      ∃ number f, c = .take number ∧ s.engine.breaking = some f ∧ f.kind = kSelect
  | .array => changesArray c ∨ s.engine.breaking ≠ none
  | .blocks => s.log.device = .mounting → ¬ MountingInv s

/-- What a command does. -/
inductive Does (c : Instr) (s t : State) : Prop
  | handles (handles : Handles (MayChange c s) s t)
  | claims {u : State} (claims : Claims s u) (acts : Acts u t)
      (array : changesArray c ∨ u.array = s.array)

/-! ## Requests -/

theorem parseSelect_bounds {payload : Bytes} {ns mark : Nat} {mode : ReplyMode}
    (h : parseSelect payload = some (ns, mode, mark)) : ns ≤ 7 ∧ mark ≤ 7 := by
  unfold parseSelect at h
  split at h
  · simp only [Config.namespaces] at h
    grind
  · cases h

/-- The key of a PUT and its total are within R2 and R3, and its inline bytes within the total. -/
theorem parsePut_bounds {payload inlineBytes : Bytes} {form : PutForm}
    (h : parsePut payload = some (form, inlineBytes)) :
    form.key.length ≤ 32 ∧ form.total ≤ 4096 ∧ inlineBytes.length ≤ form.total := by
  unfold parsePut at h
  split at h
  · dsimp only at h
    split at h
    · cases h
    · split at h
      · rename_i k _ _ _ _ _ _ _ rest _ _ _ fits
        obtain ⟨short, -, total, within⟩ := fits
        have := (keyLengthOk_iff _).1 short
        cases h
        refine ⟨?_, total, within⟩
        simp only [List.length_take]
        omega
      · cases h
  · cases h

theorem freeSlots_ne_zero {s : State} (h : freeSlots s ≠ 0) :
    s.dir.length + s.group.reserved.length < 1024 := by
  simp only [freeSlots, reservedCount, Config.dirSlots] at h
  omega

/-- A name that needs a slot passes the checks of a PUT only where one is free (R8, R28). -/
theorem freeSlots_of_putRefusal {ns : Nat} {form : PutForm} {s : State}
    (passes : putRefusal ns form s = none) (needs : needsSlot s ns form.key = true) :
    freeSlots s ≠ 0 := by
  unfold putRefusal at passes
  split at passes
  · cases passes
  · split at passes
    · cases passes
    · split at passes
      · cases passes
      · split at passes
        · cases passes
        · split at passes
          · cases passes
          · rename_i room
            exact fun full => room ⟨needs, full⟩

/-- Flags added to a set keep those of the set. -/
theorem or_and_left (x mask : Byte) : (x ||| mask) &&& x = x := by
  ext i
  simp only [BitVec.getElem_and, BitVec.getElem_or]
  cases x[i] <;> simp

theorem moveDecided_breaking (waiting : List Out) (s : State) :
    (moveDecided waiting s).engine.breaking = s.engine.breaking := by
  induction waiting generalizing s with
  | nil => rfl
  | cons o rest ih =>
    unfold moveDecided
    split
    · exact ih _
    · rfl

/-- A frame that waits when the last decided reply has been settled has waited before. -/
theorem breaking_of_settleReplies {s : State} {f : Frame}
    (h : (settleReplies s).engine.breaking = some f) : s.engine.breaking = some f := by
  unfold settleReplies at h
  split at h
  · cases h
  · exact h

/-- A frame that waits behind decided replies has waited before. -/
theorem breaking_of_decide {replies : List Out} {s : State} {f f' : Frame}
    (h : (decide_ replies { s with engine := { s.engine with breaking := some f } }).engine.breaking
      = some f') : f = f' := by
  have waits := breaking_of_settleReplies h
  rw [moveDecided_breaking] at waits
  exact Option.some.inj waits

theorem handles_ite {may : Change → Prop} {p : Prop} [Decidable p] {s t u : State}
    (yes : p → Handles may s t) (no : Handles may s u) : Handles may s (if p then t else u) := by
  split
  · exact yes ‹p›
  · exact no

section Requests

variable {may : Change → Prop} (blocks : may .blocks)
include blocks

/-- A request refused or answered changes no more than the blocks inside the part. -/
theorem works_trans_acts {s t u : State} (h : Works may s t) (k : Acts t u) : Works may s u :=
  .trans h (.acts blocks k)

theorem works_handleSelect (context : may .context) (f : Frame) (s : State) :
    Works may s (handleSelect f s) := by
  unfold handleSelect
  split
  · exact .acts blocks (acts_refused f _ _ s)
  · rename_i n mode mark parsed
    obtain ⟨ns_le, mark_le⟩ := parseSelect_bounds parsed
    exact works_trans_acts blocks (.context s n mode mark blocks context ns_le mark_le)
      (acts_refused f _ _ _)

/-- A change of the guards, behind the start of a request and before its reply. -/
theorem works_guarded (f : Frame) (s : State) (locks downs : Byte) (gate : Bool) (fails : Nat)
    (status : Status) (payload : Bytes) (held : downs &&& s.prot.lockdowns = s.prot.lockdowns)
    (fails_le : s.prot.unlockFails ≤ 8 → fails ≤ 8) :
    Works may s (endRequest status payload { startRequest f s with prot := { s.prot with
      sessionLocks := locks, lockdowns := downs, gateOpen := gate, unlockFails := fails } }) :=
  .trans (.acts blocks (acts_startRequest f s))
    (works_trans_acts blocks (.guards (startRequest f s) locks downs gate fails blocks held fails_le)
      (acts_endRequest _ _ _))

theorem works_handleLock (f : Frame) (s : State) : Works may s (handleLock f s) := by
  unfold handleLock
  dsimp only
  split
  · exact .acts blocks (acts_refused f _ _ s)
  · split
    · exact .acts blocks (acts_refused f _ _ s)
    · split
      · exact .acts blocks (acts_refused f _ _ s)
      · exact works_guarded blocks f s _ _ _ _ _ _ BitVec.and_self id

theorem works_handleLockdown (f : Frame) (s : State) : Works may s (handleLockdown f s) := by
  unfold handleLockdown
  dsimp only
  split
  · exact .acts blocks (acts_refused f _ _ s)
  · exact works_guarded blocks f s _ _ _ _ _ _ (or_and_left _ _) id

theorem works_handleGateClose (f : Frame) (s : State) : Works may s (handleGateClose f s) := by
  unfold handleGateClose
  dsimp only
  split
  · exact .acts blocks (acts_refused f _ _ s)
  · exact works_guarded blocks f s _ _ _ _ _ _ BitVec.and_self id

theorem works_handleUnlock (f : Frame) (s : State) : Works may s (handleUnlock f s) := by
  unfold handleUnlock
  dsimp only
  split
  · exact .acts blocks (acts_refused f _ _ s)
  · split
    · exact .acts blocks (acts_refused f _ _ s)
    · split
      · exact .acts blocks (acts_refused f _ _ s)
      · rename_i open_
        split
        · exact .acts blocks (acts_refused f _ _ s)
        · split
          · exact works_guarded blocks f s _ _ _ _ _ _ BitVec.and_self fun _ => Nat.zero_le _
          · refine works_guarded blocks f s _ _ _ _ _ _ BitVec.and_self fun within => ?_
            have : s.prot.unlockFails ≠ 8 := open_
            change s.prot.unlockFails + 1 ≤ 8
            omega

/-- A complete value is checked, its reservation taken and its record handed over; the assembly it may
come from has ended (R28, R29). -/
theorem works_runPut (ns : Nat) (form : PutForm) (value : Bytes) (s : State) (st : EngineState)
    (a : Option Assembly) (kept : a = s.engine.assembly ∨ a = none)
    (small : SegInv s → form.key.length ≤ 32 ∧ value.length ≤ 4096) :
    Works may s
      (runPut ns form value { s with engine := { s.engine with state := st, assembly := a } }) := by
  have changed := Acts.engineKeeps s { s.engine with state := st, assembly := a }
    (by simp [Engine.Keeps, kept])
  unfold runPut
  split
  · exact .acts blocks (.trans changed (.trans (acts_refusalGroupEffect _ _) (acts_endRequest _ _ _)))
  · rename_i passes
    dsimp only
    split
    · rename_i reserve
      rw [Bool.and_eq_true] at reserve
      have room := freeSlots_ne_zero (s := s) (freeSlots_of_putRefusal passes reserve.2)
      exact works_trans_acts blocks (.reserve s ns form.key blocks room)
        (acts_handOver _ _ fun h => small ⟨h.table, h.job, h.assembly, h.grant, h.copy, h.settings,
          h.array, h.programs, h.mountOps, h.mount⟩)
    · exact .acts blocks (acts_handOver _ s small)

theorem works_handlePut (f : Frame) (s : State) : Works may s (handlePut f s) := by
  unfold handlePut
  dsimp only
  split
  · exact .acts blocks (acts_refused f _ _ s)
  · rename_i form inlineBytes parsed
    obtain ⟨key, total, within⟩ := parsePut_bounds parsed
    refine .trans (.acts blocks (acts_startRequest f s)) ?_
    split
    · exact works_runPut blocks _ form inlineBytes (startRequest f s) s.engine.state
        s.engine.assembly (.inl rfl) fun _ => ⟨key, Nat.le_trans within total⟩
    · exact .acts blocks (.engine _ _ rfl rfl rfl (fun j hj h => h.job j hj) fun a ha _ => by
        cases ha
        exact ⟨key, total⟩)

theorem works_assembleData (r : Request) {a : Assembly} (f : Frame) {s : State}
    (assembly : s.engine.assembly = some a) : Works may s (assembleData r a f s) := by
  unfold assembleData
  split
  · exact .acts blocks (acts_decide _ s)
  · split
    · rename_i joins
      dsimp only
      split
      · rename_i complete
        exact works_runPut blocks r.ns a.form _ s .busy none (.inr rfl) fun h => by
          rw [complete]
          exact h.assembly a assembly
      · exact .acts blocks (.engine s _ rfl rfl rfl (fun j hj h => h.job j hj) fun a' ha h => by
          cases ha
          exact h.assembly a assembly)
    · exact .acts blocks (acts_decide _ s)

/-- A frame as the engine handles it from IDLE (R151). -/
theorem handles_frame (f : Frame) (s : State) (context : f.kind = kSelect → may .context)
    (array : f.kind = kReset → may .array) : Handles may s (handleFrame f s) := by
  have inside {t : State} (h : Acts s t) : Handles may s t := .works (.acts blocks h)
  unfold handleFrame
  refine
    handles_ite (fun _ => inside (acts_handleIdent f s)) <|
    handles_ite (fun isSelect => .works (works_handleSelect blocks (context isSelect) f s)) <|
    handles_ite (fun _ => inside (acts_handleSpace f s)) <|
    handles_ite (fun _ => .works (works_handlePut blocks f s)) <|
    handles_ite (fun _ => inside (acts_handleData f s)) <|
    handles_ite (fun _ => inside (acts_handleGet f s)) <|
    handles_ite (fun _ => inside (acts_handleStat f s)) <|
    handles_ite (fun _ => inside (acts_handleDelete f s)) <|
    handles_ite (fun _ => inside (acts_handleList f s)) <|
    handles_ite (fun _ => inside (acts_handleBegin f s)) <|
    handles_ite (fun _ => inside (acts_handleCommit f s)) <|
    handles_ite (fun _ => inside (acts_handleDiscard f s)) <|
    handles_ite (fun _ => inside (acts_handleTidy f s)) <|
    handles_ite (fun _ => inside (acts_handleFormat f s)) <|
    handles_ite (fun _ => inside (acts_handleSetLimit f s)) <|
    handles_ite (fun _ => .works (works_handleLock blocks f s)) <|
    handles_ite (fun _ => .works (works_handleLockdown blocks f s)) <|
    handles_ite (fun _ => inside (acts_handlePersist f s)) <|
    handles_ite (fun _ => .works (works_handleGateClose blocks f s)) <|
    handles_ite (fun _ => .works (works_handleUnlock blocks f s)) <|
    handles_ite (fun _ => inside (acts_handleSetPassphrase f s)) <|
    handles_ite (fun _ => inside (acts_handleSetPolicy f s)) <|
    handles_ite (fun _ => inside (acts_handleFinalize f s)) <|
    handles_ite (fun _ => inside (acts_handleProtectStatus f s)) <|
    handles_ite (fun isReset => ?_) (inside (acts_handleUnknown f s))
  unfold handleReset
  split
  · exact inside (acts_refused f _ _ s)
  · exact .resets (.refl s) (array isReset) (.started _)

/-- The frame that broke an assembly, when its turn has come (R24). -/
theorem handles_continueBreaking (s : State)
    (context : ∀ f, s.engine.breaking = some f → f.kind = kSelect → may .context)
    (array : ∀ f, s.engine.breaking = some f → f.kind = kReset → may .array) :
    Handles may s (continueBreaking s) := by
  unfold continueBreaking
  split
  · rename_i f breaking
    split
    · exact (Works.acts blocks (acts_toIdle s)).handles
        (handles_frame blocks f _ (context f breaking) (array f breaking))
    · exact .works (.refl s)
  · exact .works (.refl s)

/-- A frame just taken (R150). -/
theorem handles_takeFrame (f : Frame) (s : State) (context : f.kind = kSelect → may .context)
    (array : f.kind = kReset → may .array) : Handles may s (takeFrame f s) := by
  unfold takeFrame
  split
  · unfold takeAssembling
    split
    · rename_i r a _ assembly
      split
      · exact .works (works_assembleData blocks r f assembly)
      · unfold breakAssembly
        have broken := Acts.trans
          (.engineKeeps s { s.engine with breaking := some f } (by simp [Engine.Keeps]))
          (acts_decide [r.reply .incomplete []] _)
        refine (Works.acts blocks broken).handles (handles_continueBreaking blocks _ ?_ ?_)
        · intro f' breaking isSelect
          obtain rfl := breaking_of_decide breaking
          exact context isSelect
        · intro f' breaking isReset
          obtain rfl := breaking_of_decide breaking
          exact array isReset
    · exact .works (.refl s)
  · exact handles_frame blocks f s context array

end Requests

/-! ## Takes -/

theorem link_inbound {may : Change → Prop} (s : State) (inbound : List Frame)
    (room : s.inbound.length ≤ 8 → inbound.length ≤ 8) :
    Works may s { s with inbound := inbound } :=
  .link s s.sel s.port inbound room

/-- The take of the head, of a sort that this command takes. -/
theorem does_takeHead (c : Instr) (sort : Frame → Bool) (s : State)
    (select : ∀ f, sort f = true → f.kind = kSelect → c = .select)
    (reset : ∀ f, sort f = true → f.kind = kReset → c = .reset) :
    Does c s (takeHead sort s) := by
  unfold takeHead
  split
  · exact .handles (.works (.refl s))
  · rename_i f rest inbound
    split
    · rename_i taken
      simp only [Bool.and_eq_true, decide_eq_true_eq] at taken
      obtain ⟨⟨⟨_, mounted⟩, fits⟩, _⟩ := taken
      have blocks : MayChange c s .blocks := fun mounting => absurd mounting mounted
      have dropped : Works (MayChange c s) s { s with inbound := rest } :=
        link_inbound s rest fun h => by
          rw [inbound, List.length_cons] at h
          omega
      refine .handles (dropped.handles (handles_takeFrame blocks f _ ?_ ?_))
      · exact fun isSelect => .inl (select f fits isSelect)
      · exact fun isReset => .inl (by rw [reset f fits isReset]; trivial)
    · exact .handles (.works (.refl s))

theorem does_takeKind (c : Instr) (kind : Byte) (s : State) (select : kind = kSelect → c = .select)
    (reset : kind = kReset → c = .reset) : Does c s (takeKind kind s) :=
  does_takeHead c _ s (fun _ fits isSelect => select ((of_decide_eq_true fits).symm.trans isSelect))
    fun _ fits isReset => reset ((of_decide_eq_true fits).symm.trans isReset)

end Sys2Proof.Machine
end

section
/-!
PROOFS. What the commands of the link and the lines, the completions and mount do, in the primitives of
`Works`; `exec_does` says what any command does.
-/

namespace Sys2Proof.Machine

open Sys2Proof

/-! ## The link -/

section Link

variable (c : Instr) (s : State)

theorem Does.works {c : Instr} {s t : State} (h : Works (MayChange c s) s t) : Does c s t :=
  .handles (.works h)

theorem works_answerWith {may : Change → Prop} (op : Byte) (received : Nat)
    (collected answer : Bytes) : Works may s (answerWith op received collected answer s) :=
  .link s true _ s.inbound id

/-- A transaction that the port does not take changes no more than SEL. -/
theorem does_transaction (bytes : Bytes) (effect : State → State) (does : Does c s (effect s)) :
    Does c s (transaction bytes effect s) := by
  unfold transaction
  split
  · exact does
  · unfold selIgnored
    split
    · exact .works (.refl s)
    · exact .works (.link s true s.port s.inbound id)

theorem works_sendEffect {may : Change → Prop} (kind tag : Byte) (payload : Bytes)
    (crc : BitVec 16) : Works may s (sendEffect kind tag payload crc s) := by
  unfold sendEffect
  split
  · exact .link s true _ s.inbound id
  · dsimp only
    split
    · rename_i accepted
      refine .link s true _ (s.inbound ++ [_]) fun _ => ?_
      have free : s.inbound.length < 8 := by
        by_contra full
        unfold sendVerdict at accepted
        split at accepted
        · exact absurd accepted (by decide)
        · rw [if_pos (show Config.inboundSlots ≤ s.inbound.length from Nat.le_of_not_lt full)] at accepted
          exact absurd accepted (by decide)
      simp only [List.length_append, List.length_singleton]
      omega
    · exact works_answerWith s _ _ _ _

theorem blocks_of_reply {s : State} {r : Reply} {rest : List Reply} (head : s.replies = r :: rest) :
    MayChange c s .blocks := fun _ inv => by simp [inv.replies] at head

theorem blocks_of_request {s : State} {r : Request} (request : s.engine.request = some r) :
    MayChange c s .blocks := fun _ inv => by
  rw [inv.engine] at request
  cases request

/-- What an accepted TAKE sets going (R24, R157). -/
theorem does_take (number : Byte) : Does (.take number) s (takeEffect number s) := by
  unfold takeEffect
  split
  · exact .works (works_answerWith s _ _ _ _)
  · rename_i r rest head
    split
    · have blocks : MayChange (.take number) s .blocks := blocks_of_reply _ head
      unfold slotFreed
      dsimp only
      set answered := answerWith opTake 2 [] [verdictAccepted] s with answered_eq
      have freed : Works (MayChange (.take number) s) s
          (drainNotices { answered with replies := rest }) :=
        .trans (works_answerWith s opTake 2 [] [verdictAccepted])
          (.freed (s := answered) (r := r) blocks head)
      have engine : (drainNotices { answered with replies := rest }).engine = s.engine := by
        obtain ⟨_, _, _, moved⟩ := moveNotices_frame answered.notices { answered with replies := rest }
        rw [drainNotices, moved]
        rfl
      split
      · have waits {f : Frame} (h : (settleReplies (moveDecided
            (drainNotices { answered with replies := rest }).engine.decided
            (drainNotices { answered with replies := rest }))).engine.breaking = some f) :
            s.engine.breaking = some f := by
          have := breaking_of_settleReplies h
          rwa [moveDecided_breaking, engine] at this
        refine .handles ((Works.trans freed (.acts blocks (.trans (acts_moveDecided _ _)
          (acts_settleReplies _)))).handles (handles_continueBreaking blocks _ ?_ ?_))
        · exact fun f h isSelect => .inr ⟨number, f, rfl, waits h, isSelect⟩
        · exact fun f h _ => .inr (by rw [waits h]; nofun)
      · exact .works (.trans freed (.acts blocks (acts_offerChunk _)))
      all_goals exact .works freed
    · exact .works (works_answerWith s _ _ _ _)

theorem does_cancel (tag : Byte) : Does c s (cancelEffect tag s) := by
  unfold cancelEffect
  dsimp only
  have answered : Works (MayChange c s) s
      { answerWith opCancel 2 [] [byteOf (s.inbound.length -
          (s.inbound.filter fun f => !decide (f.tag = tag)).length), verdictAccepted] s with
        inbound := s.inbound.filter fun f => !decide (f.tag = tag) } :=
    .link s true _ _ fun h => Nat.le_trans (List.length_filter_le _ _) h
  split
  · rename_i r request
    split
    · exact .works (.trans answered (.acts (blocks_of_request c request) (acts_cancelRequest _)))
    · exact .works answered
  · exact .works answered

theorem works_selRelease {may : Change → Prop} : Works may s (selRelease s) :=
  .link s false _ s.inbound id

theorem does_transactionCut (received : Bytes) (open_ : Bool) {t : State}
    (h : execTransactionCut received s open_ = .next t) : Does c s t := by
  unfold execTransactionCut at h
  cases h
  split
  · refine does_transaction c s _ _ ?_
    split
    · exact .works (.link s true _ s.inbound id)
    · exact .works (.refl s)
  · split
    · exact .works (works_selRelease s)
    · exact .works (.refl s)

end Link

/-! ## The array -/

/-- What holds of every entry holds of every entry after a change of one that keeps it. -/
theorem forall_mem_modify {α : Type} {P : α → Prop} {l : List α} (h : ∀ a ∈ l, P a) (i : Nat)
    (f : α → α) (keeps : ∀ a, l[i]? = some a → P a → P (f a)) : ∀ a ∈ l.modify i f, P a := by
  intro a mem
  obtain ⟨j, hj⟩ := List.mem_iff_getElem?.1 mem
  rw [List.getElem?_modify] at hj
  cases entry : l[j]? with
  | none => simp [entry] at hj
  | some b =>
    have hb := h b (List.mem_of_getElem? entry)
    rw [entry] at hj
    cases hj
    split
    · rename_i same
      exact keeps b (same ▸ entry) hb
    · exact hb

section Array

variable {may : Change → Prop} (allowed : may .array)
include allowed

/-- A change of one segment of the array that adds no record beyond the bounds. -/
theorem works_modArray (i : Nat) (f : ArraySeg → ArraySeg) (free : Nat) (s : State)
    (small : SegInv s → ∀ a : ArraySeg, (∀ t ∈ a.slots, ∀ r, t.record = some r → r.small) →
      ∀ t ∈ (f a).slots, ∀ r, t.record = some r → r.small) :
    Works may s { modArray i f s with free := free } :=
  .array s _ free allowed fun h => forall_mem_modify h.array i f fun a _ keeps => small h a keeps

theorem works_writeMark (i : Nat) (p : MarkPos) (carried : Nat) (ok : Bool) (s : State) :
    Works may s (writeMark i p carried ok s) :=
  works_modArray allowed i _ s.free s fun _ _ h => h

theorem works_eraseArray (i : Nat) (s : State) : Works may s (eraseArray i s) :=
  works_modArray allowed i _ s.free s fun _ _ _ _ mem => by simp [ArraySeg.blank] at mem

theorem works_halfErase (i : Nat) (s : State) : Works may s (halfErase i s) := by
  refine works_modArray allowed i _ _ s fun _ a h t mem r record => ?_
  obtain ⟨u, hu, rfl⟩ := List.mem_map.1 mem
  split at record
  · exact h u hu r record
  · cases record

theorem works_writeSlot (loc : Loc) (record : Record) (whole : Bool) (free : Nat) (s : State)
    (small : SegInv s → record.small) :
    Works may s { writeSlot loc record whole s with free := free } := by
  refine works_modArray allowed loc.seg _ free s fun h a old t mem r found => ?_
  rcases List.mem_append.1 mem with mem | mem
  · exact old t mem r found
  · obtain rfl := List.mem_singleton.1 mem
    dsimp only at found
    split at found
    · cases found
      exact small h
    · cases found

end Array

/-! ## Completions outside mount -/

section Completions

variable {c : Instr} {s : State}

/-- An operation of a block other than mount is in progress. -/
theorem blocks_of_cur {op : ArrayOp} (cur : s.ctrl.cur = some op) (inner : op.ofMount = false) :
    MayChange c s .blocks := fun _ inv => by
  have := inv.working op cur
  rw [inner] at this
  cases this

/-- The record of the program in progress is within bounds. -/
theorem small_of_cur {loc : Loc} {r : Record} (cur : s.ctrl.cur = some (.programRecord loc r))
    (h : SegInv s) : r.small := h.programs loc r (by simp [cur])

/-- The completion of an operation changes the controller and the reclaim unit's state alone. -/
theorem completeOp_frame (s : State) :
    ∃ ctrl st, completeOp s = { s with ctrl := ctrl, reclaim := { s.reclaim with state := st } } := by
  unfold completeOp resume
  split
  · exact ⟨_, _, rfl⟩
  · split <;> exact ⟨_, _, rfl⟩

@[simp] theorem completeOp_log (s : State) : (completeOp s).log = s.log := by
  obtain ⟨_, _, h⟩ := completeOp_frame s
  rw [h]

@[simp] theorem completeOp_engine (s : State) : (completeOp s).engine = s.engine := by
  obtain ⟨_, _, h⟩ := completeOp_frame s
  rw [h]

@[simp] theorem completeOp_copy (s : State) : (completeOp s).reclaim.copy = s.reclaim.copy := by
  obtain ⟨_, _, h⟩ := completeOp_frame s
  rw [h]

/-- The program of a record has succeeded (R52). -/
theorem does_programmed {loc : Loc} {record : Record} {g : Grant}
    (cur : s.ctrl.cur = some (.programRecord loc record)) (grant : s.log.grant = some g)
    (changes : changesArray c) :
    Does c s (match g.claimant with
      | .engine => engineProgrammed g loc (completeOp (writeSlot loc record true s))
      | .reclaim => copyProgrammed loc (completeOp (writeSlot loc record true s))) := by
  have completed : Works (MayChange c s) s (completeOp (writeSlot loc record true s)) :=
    .trans (works_writeSlot (.inl changes) loc record true s.free s (small_of_cur cur))
      (.acts (blocks_of_cur cur rfl) (.completeOp _))
  have onward {t : State} (h : Acts (completeOp (writeSlot loc record true s)) t) : Does c s t :=
    .works (.trans completed (.acts (blocks_of_cur cur rfl) h))
  split
  · rename_i claimant
    unfold engineProgrammed
    split
    · rename_i j job
      rw [completeOp_engine] at job
      exact .claims (.engine cur grant claimant job) (.trans (acts_engineReply _ _ _ _)
        (.trans (acts_placementEnd _) (acts_engineNext _ _ _))) (.inl changes)
    · exact onward (acts_placementEnd _)
  · rename_i claimant
    unfold copyProgrammed
    split
    · rename_i copy job
      rw [completeOp_copy] at job
      refine .claims (.copy cur grant claimant job) (.trans (.reclaimKeeps _ _ (.inr rfl))
        (.trans (acts_placementEnd _) (acts_walkStep _))) (.inl changes)
    · exact onward (acts_placementEnd _)

theorem does_recordProgramDone (ok : Bool) :
    Does (.recordProgramDone ok) s (recordProgramDoneEffect ok s) := by
  unfold recordProgramDoneEffect
  split
  · rename_i loc record cur
    have blocks : MayChange (.recordProgramDone ok) s .blocks := blocks_of_cur cur rfl
    have allowed : MayChange (.recordProgramDone ok) s .array := .inl trivial
    have completed {t : State} (whole : Bool) (free : Nat)
        (h : Acts (completeOp { writeSlot loc record whole s with free := free }) t) :
        Does (.recordProgramDone ok) s t :=
      .works (.trans (works_writeSlot allowed loc record whole free s (small_of_cur cur))
        (.acts blocks (.trans (.completeOp _) h)))
    dsimp only
    split
    · rename_i g grant
      rw [completeOp_log] at grant
      cases ok with
      | true => exact does_programmed cur grant trivial
      | false =>
        exact completed _ _ (acts_programFailed loc (by rw [completeOp_log]; exact grant))
    · cases ok with
      | true => exact completed true s.free (.refl _)
      | false => exact completed _ _ (.refl _)
  · exact .works (.refl s)

/-- A mark's or an erase's completion outside mount, with what its requester does then. -/
theorem does_completion {op : ArrayOp} (cur : s.ctrl.cur = some op) (inner : op.ofMount = false)
    {written t : State} (array : Works (MayChange c s) s written)
    (acts : Acts (completeOp written) t) : Does c s t :=
  .works (.trans array (.acts (blocks_of_cur cur inner) (.trans (.completeOp written) acts)))

theorem does_openedMarkDone (ok : Bool) : Does (.openedMarkDone ok) s (openedMarkDoneEffect ok s) := by
  unfold openedMarkDoneEffect
  split
  · rename_i v stamp cur
    refine does_completion cur rfl (works_writeMark (.inl trivial) v .opened stamp ok s) ?_
    dsimp only
    split
    · exact acts_openedSucceeded v stamp _
    · exact acts_openedFailed v _
  · exact .works (.refl s)

theorem does_filledMarkDone (ok : Bool) : Does (.filledMarkDone ok) s (filledMarkDoneEffect ok s) := by
  unfold filledMarkDoneEffect
  split
  · rename_i v cur
    refine does_completion cur rfl (works_writeMark (.inl trivial) v .filled 0 ok s) ?_
    dsimp only
    split
    · exact .refl _
    · exact acts_markSuspect v _
  · exact .works (.refl s)

theorem does_reclaimMarkDone (ok : Bool) :
    Does (.reclaimMarkDone ok) s (reclaimMarkDoneEffect ok s) := by
  unfold reclaimMarkDoneEffect
  split
  · rename_i v cur
    refine does_completion cur rfl (works_writeMark (.inl trivial) v .reclaim 0 ok s) ?_
    dsimp only
    refine .trans ?_ (acts_beginWalk v _)
    split
    · exact .refl _
    · exact acts_markSuspect v _
  · exact .works (.refl s)

theorem does_eraseMarkDone (ok : Bool) : Does (.eraseMarkDone ok) s (eraseMarkDoneEffect ok s) := by
  unfold eraseMarkDoneEffect
  split
  · rename_i v cur
    refine does_completion cur rfl (works_writeMark (.inl trivial) v .erase 0 ok s) ?_
    dsimp only
    split
    · exact .trans (acts_setState v .erasing nofun _) (.askOther _ _ rfl (by nofun))
    · exact acts_retireVictim v _ _
  · exact .works (.refl s)

theorem does_eraseDone (ok : Bool) : Does (.eraseDone ok) s (eraseDoneEffect ok s) := by
  unfold eraseDoneEffect
  split
  · rename_i v cur
    split
    · exact does_completion cur rfl (works_eraseArray (.inl trivial) v s)
        (.askOther _ _ rfl (by nofun))
    · exact does_completion cur rfl (works_halfErase (.inl trivial) v s) (acts_retireVictim v _ _)
  · exact .works (.refl s)

theorem does_erasedMarkDone (ok : Bool) : Does (.erasedMarkDone ok) s (erasedMarkDoneEffect ok s) := by
  unfold erasedMarkDoneEffect
  split
  · rename_i v count cur
    refine does_completion cur rfl (works_writeMark (.inl trivial) v .erased count ok s) ?_
    dsimp only
    split
    · exact .trans (acts_pooled v count _) (.trans (acts_buriedDrop v _) (acts_completePass _ _))
    · exact acts_retireVictim v _ _
  · exact .works (.refl s)

theorem does_retiredMarkDone (ok : Bool) :
    Does (.retiredMarkDone ok) s (retiredMarkDoneEffect ok s) := by
  unfold retiredMarkDoneEffect
  split
  · rename_i v asker cur
    have written : Works (MayChange (.retiredMarkDone ok) s) s (writeMark v .retired 0 ok s) :=
      works_writeMark (.inl trivial) v .retired 0 ok s
    by_cases held : s.log.device = .mounting ∧ MountingInv s
    · obtain ⟨-, inv⟩ := held
      exact .works (.trans written (.ended _ inv.queue inv.held inv.unpaused))
    · exact .works (.trans written (.acts (fun mounting inv => held ⟨mounting, inv⟩) (.completeOp _)))
  · exact .works (.refl s)

/-- What a read's completion outside mount does. -/
theorem does_read {effect : State → State} (acts : Acts s (effect s))
    (cur : effect s = s ∨ ∃ op, s.ctrl.cur = some op ∧ op.ofMount = false) : Does c s (effect s) := by
  rcases cur with same | ⟨op, cur, inner⟩
  · rw [same]
    exact .works (.refl s)
  · exact .works (.acts (blocks_of_cur cur inner) acts)

end Completions

end Sys2Proof.Machine
end

section
/-!
PROOFS. The order of names (R2), and the directory's order and size under its changes (R5, R7).
-/

namespace Sys2Proof.Machine

open Sys2Proof

/-! ## The order of names -/

theorem keyLt_irrefl (a : Bytes) : keyLt a a = false := by
  induction a with
  | nil => rfl
  | cons x xs ih => simpa [keyLt] using ih

theorem keyLt_trans {a b c : Bytes} (h : keyLt a b = true) (k : keyLt b c = true) :
    keyLt a c = true := by
  induction a generalizing b c with
  | nil =>
    cases c with
    | nil => cases b <;> cases k
    | cons => rfl
  | cons x xs ih =>
    cases b with
    | nil => cases h
    | cons y ys =>
      cases c with
      | nil => cases k
      | cons z zs =>
        simp only [keyLt] at *
        grind

/-- Of two keys that differ one is the lesser. -/
theorem keyLt_of_not {a b : Bytes} (differ : a ≠ b) (h : keyLt a b = false) : keyLt b a = true := by
  induction a generalizing b with
  | nil =>
    cases b with
    | nil => exact absurd rfl differ
    | cons => cases h
  | cons x xs ih =>
    cases b with
    | nil => rfl
    | cons y ys =>
      simp only [keyLt] at *
      by_cases same : x = y
      · subst same
        rw [if_pos rfl] at h ⊢
        exact ih (fun g => differ (by rw [g])) h
      · rw [if_neg same] at h
        rw [if_neg (Ne.symm same)]
        have differ : x.toNat ≠ y.toNat := fun g => same (BitVec.eq_of_toNat_eq g)
        have := of_decide_eq_false h
        exact decide_eq_true (by omega)

theorem nameLt_iff {ns ns' : Nat} {key key' : Bytes} :
    nameLt ns key ns' key' = true ↔ ns < ns' ∨ (ns = ns' ∧ keyLt key key' = true) := by
  simp [nameLt]

theorem nameLt_trans {n₁ n₂ n₃ : Nat} {k₁ k₂ k₃ : Bytes} (h : nameLt n₁ k₁ n₂ k₂ = true)
    (k : nameLt n₂ k₂ n₃ k₃ = true) : nameLt n₁ k₁ n₃ k₃ = true := by
  rw [nameLt_iff] at *
  rcases h with h | ⟨rfl, h⟩
  · omega
  · rcases k with k | ⟨rfl, k⟩
    · exact .inl k
    · exact .inr ⟨rfl, keyLt_trans h k⟩

/-- Of two names that differ one is the lesser. -/
theorem nameLt_of_not {ns ns' : Nat} {key key' : Bytes} (differ : ¬ (ns' = ns ∧ key' = key))
    (h : nameLt ns key ns' key' = false) : nameLt ns' key' ns key = true := by
  have not : ¬ (ns < ns' ∨ (ns = ns' ∧ keyLt key key' = true)) := by
    rw [← nameLt_iff, h]
    decide
  rw [nameLt_iff]
  rcases Nat.lt_trichotomy ns' ns with less | same | more
  · exact .inl less
  · refine .inr ⟨same, keyLt_of_not (fun g => differ ⟨same, g.symm⟩) ?_⟩
    rw [← Bool.not_eq_true]
    exact fun g => not (.inr ⟨same.symm, g⟩)
  · exact absurd (.inl more) not

theorem nameLt_irrefl (ns : Nat) (key : Bytes) : nameLt ns key ns key = false := by
  simp [nameLt, keyLt_irrefl]

/-! ## The directory -/

theorem mem_dirPut {dir : List Entry} {e y : Entry} (h : y ∈ dirPut dir e) : y = e ∨ y ∈ dir := by
  induction dir with
  | nil => exact .inl (List.mem_singleton.1 h)
  | cons x rest ih =>
    unfold dirPut at h
    split at h
    · rcases List.mem_cons.1 h with rfl | mem
      · exact .inl rfl
      · exact .inr (List.mem_cons_of_mem _ mem)
    · split at h
      · exact List.mem_cons.1 h
      · rcases List.mem_cons.1 h with rfl | mem
        · exact .inr List.mem_cons_self
        · exact (ih mem).imp_right (List.mem_cons_of_mem _)

/-- An entry put in its place keeps the directory's order (R2, R5). -/
theorem ordered_dirPut {dir : List Entry} (h : ordered dir) (e : Entry) : ordered (dirPut dir e) := by
  induction dir with
  | nil => exact List.pairwise_singleton _ e
  | cons x rest ih =>
    obtain ⟨least, sorted⟩ := List.pairwise_cons.1 h
    unfold dirPut
    split
    · rename_i same
      refine List.pairwise_cons.2 ⟨fun y mem => ?_, sorted⟩
      have := least y mem
      rwa [same.1, same.2] at this
    · rename_i differ
      split
      · rename_i less
        refine List.pairwise_cons.2 ⟨fun y mem => ?_, h⟩
        rcases List.mem_cons.1 mem with rfl | mem
        · exact less
        · exact nameLt_trans less (least y mem)
      · rename_i notLess
        refine List.pairwise_cons.2 ⟨fun y mem => ?_, ih sorted⟩
        rcases mem_dirPut mem with rfl | mem
        · exact nameLt_of_not differ (Bool.not_eq_true _ ▸ notLess)
        · exact least y mem

theorem ordered_filter {dir : List Entry} (h : ordered dir) (p : Entry → Bool) :
    ordered (dir.filter p) := List.Pairwise.sublist List.filter_sublist h

theorem ordered_foldl_dirPut (entries : List Entry) {dir : List Entry} (h : ordered dir) :
    ordered (entries.foldl dirPut dir) := by
  induction entries generalizing dir with
  | nil => exact h
  | cons e rest ih => exact ih (ordered_dirPut h e)

/-- The directory mount rebuilds is in order (R118). -/
theorem ordered_rebuild (m : Mount) : ordered m.rebuild.dir :=
  ordered_foldl_dirPut _ List.Pairwise.nil

theorem length_dirPut_le (dir : List Entry) (e : Entry) :
    (dirPut dir e).length ≤ dir.length + 1 := by
  induction dir with
  | nil => exact Nat.le_refl _
  | cons x rest ih =>
    unfold dirPut
    split_ifs
    · exact Nat.le_succ _
    · exact Nat.le_refl _
    · exact Nat.succ_le_succ ih

theorem length_foldl_dirPut_le (entries dir : List Entry) :
    (entries.foldl dirPut dir).length ≤ dir.length + entries.length := by
  induction entries generalizing dir with
  | nil => exact Nat.le_refl _
  | cons e rest ih =>
    have := length_dirPut_le dir e
    have := ih (dirPut dir e)
    rw [List.foldl_cons, List.length_cons]
    omega

/-- The directory mount rebuilds has 1,024 entries at most (R118). -/
theorem length_rebuild_dir (m : Mount) : m.rebuild.dir.length ≤ 1024 := by
  have built := length_foldl_dirPut_le
    ((admission ((nameRecords m.reads m.found).map Found.entry)).take Config.dirSlots) []
  rw [List.length_nil, Nat.zero_add] at built
  exact Nat.le_trans built (List.length_take_le _ _)

/-- The name of an entry (R5). -/
def Entry.name (e : Entry) : Nat × Bytes := (e.ns, e.key)

/-- A directory in order has no more entries than there are names it can have. -/
theorem length_le_of_names {dir : List Entry} (h : ordered dir) {names : List (Nat × Bytes)}
    (within : ∀ e ∈ dir, e.name ∈ names) : dir.length ≤ names.length := by
  have nodup : (dir.map Entry.name).Nodup := by
    refine List.pairwise_map.2 (h.imp fun {a b} less same => ?_)
    have ns : a.ns = b.ns := congrArg Prod.fst same
    have key : a.key = b.key := congrArg Prod.snd same
    rw [ns, key, nameLt_irrefl] at less
    cases less
  have sub : dir.map Entry.name ⊆ names := fun n mem => by
    obtain ⟨e, he, rfl⟩ := List.mem_map.1 mem
    exact within e he
  simpa using (nodup.subperm sub).length_le

theorem name_mem_of_lookup {dir : List Entry} {ns : Nat} {key : Bytes}
    (h : (lookup dir ns key).isSome = true) : (ns, key) ∈ dir.map Entry.name := by
  obtain ⟨e, found⟩ := Option.isSome_iff_exists.1 h
  unfold lookup at found
  have same : e.ns = ns ∧ e.key = key := by simpa using List.find?_some found
  exact List.mem_map.2 ⟨e, List.mem_of_find?_eq_some found, by rw [Entry.name, same.1, same.2]⟩

end Sys2Proof.Machine
end

section
/-!
PROOFS. The segment tables of the log manager and of mount stay within the bounds of R43, R45 and R47;
what mount's steps do, and what any command does.
-/

namespace Sys2Proof.Machine

open Sys2Proof

/-! ## Segment tables -/

/-- A change of one entry that brings none into a state brings no more of that state. -/
theorem countSegs_modify_le {segs : List SegEntry} {f : SegEntry → SegEntry} {st : SegState}
    (keeps : ∀ e, (f e).state = st → e.state = st) (i : Nat) :
    countSegs (segs.modify i f) st ≤ countSegs segs st := by
  unfold countSegs
  induction segs generalizing i with
  | nil => cases i <;> exact Nat.le_refl _
  | cons e rest ih =>
    cases i with
    | zero =>
      simp only [List.modify_zero_cons, List.filter_cons]
      have := keeps e
      split_ifs <;> simp_all
    | succ i =>
      have := ih i
      simp only [List.modify_succ_cons, List.filter_cons]
      split_ifs <;> simpa

/-- A change of one entry brings at most one more of a state. -/
theorem countSegs_modify_le_succ (segs : List SegEntry) (f : SegEntry → SegEntry) (st : SegState)
    (i : Nat) : countSegs (segs.modify i f) st ≤ countSegs segs st + 1 := by
  unfold countSegs
  induction segs generalizing i with
  | nil => cases i <;> exact Nat.zero_le _
  | cons e rest ih =>
    cases i with
    | zero =>
      simp only [List.modify_zero_cons, List.filter_cons]
      grind
    | succ i =>
      have := ih i
      simp only [List.modify_succ_cons, List.filter_cons]
      grind

/-- The head, closed, is counted OPEN no more. -/
theorem countSegs_modify_head {segs : List SegEntry} {f : SegEntry → SegEntry} {head : Nat}
    (isHead : headOf segs = some head) (closes : ∀ e, (f e).state ≠ .opened) :
    countSegs (segs.modify head f) .opened + 1 = countSegs segs .opened := by
  unfold countSegs
  unfold headOf at isHead
  induction segs generalizing head with
  | nil => cases isHead
  | cons e rest ih =>
    rw [List.findIdx?_cons] at isHead
    split at isHead
    · cases isHead
      simp_all
    · obtain ⟨i, hi, rfl⟩ := Option.map_eq_some_iff.1 isHead
      have := ih hi
      simp_all

/-- With no head no segment is OPEN. -/
theorem countSegs_of_headOf_none {segs : List SegEntry} (none_ : headOf segs = none) :
    countSegs segs .opened = 0 := by
  unfold headOf at none_
  rw [List.findIdx?_eq_none_iff] at none_
  unfold countSegs
  rw [List.length_eq_zero_iff, List.filter_eq_nil_iff]
  intro e mem
  simpa using none_ e mem

theorem TableInv.modify {segs : List SegEntry} (h : TableInv segs) (i : Nat)
    {f : SegEntry → SegEntry} (opened : ∀ e, (f e).state = .opened → e.state = .opened)
    (used : ∀ e, segs[i]? = some e → e.used ≤ 16320 → (f e).used ≤ 16320) :
    TableInv (segs.modify i f) where
  oneOpen := Nat.le_trans (countSegs_modify_le opened i) h.oneOpen
  used := forall_mem_modify h.used i f used

/-- With no segment OPEN one may be opened. -/
theorem TableInv.openAs {segs : List SegEntry} (h : TableInv segs)
    (noneOpen : countSegs segs .opened = 0) (i stamp : Nat) :
    TableInv (segs.modify i fun e => e.openAs stamp) where
  oneOpen := by
    have := countSegs_modify_le_succ segs (fun e => e.openAs stamp) .opened i
    omega
  used := forall_mem_modify h.used i _ fun _ _ _ => Nat.zero_le _

/-- The head is changed (R53). -/
theorem TableInv.changeHead {s : State} (h : TableInv s.log.segs) (v stamp : Nat) :
    TableInv (changeHead v stamp s).log.segs := by
  unfold Machine.changeHead
  dsimp only
  split
  · rename_i head isHead
    have closed := countSegs_modify_head (f := SegEntry.closed) isHead nofun
    have one := h.oneOpen
    refine TableInv.openAs (segs := s.log.segs.modify head SegEntry.closed) ?_ (by omega) v stamp
    exact h.modify head nofun fun _ _ _ => Nat.le_refl _
  · rename_i none_
    exact TableInv.openAs h (countSegs_of_headOf_none none_) v stamp

/-! ## Mount's table -/

/-- Mount goes on in another phase, asking for another operation. -/
theorem MountTableInv.go {m : Mount} {cur : Option ArrayOp} (h : MountTableInv m cur)
    (phase : MountPhase) (op : Option ArrayOp) (walk : ∀ todo off, phase = .walk todo off → off ≤ 16384)
    (opening : ∀ i stamp, op = some (.mountOpenedMark i stamp) → countSegs m.segs .opened = 0) :
    MountTableInv { m with phase := phase } op :=
  ⟨h.table, h.settings, h.ends, walk, opening⟩

/-- Mount's table, whatever operation is in progress. -/
theorem MountTableInv.idle {m : Mount} {cur : Option ArrayOp} (h : MountTableInv m cur) :
    MountTableInv m none := ⟨h.table, h.settings, h.ends, h.walk, nofun⟩

/-- Mount changes an entry of its table. -/
theorem MountTableInv.withSegs {m : Mount} {cur : Option ArrayOp} (h : MountTableInv m cur)
    {segs : List SegEntry} (table : TableInv segs) : MountTableInv { m with segs := segs } none :=
  ⟨table, h.settings, h.ends, h.walk, nofun⟩

/-- What an entry of the rebuilt table has used: no more than its record area (R121). -/
theorem settledEntry_used {m : Mount} (ends : ∀ e ∈ m.ends, e.off ≤ 16384) (i : Nat) :
    (settledEntry m i).used ≤ 16320 := by
  unfold settledEntry
  split
  · exact Nat.zero_le _
  · split
    · split
      · rename_i e found
        have := ends e (List.mem_of_find?_eq_some found)
        simp only [walkedEntry, Config.descriptorBytes]
        omega
      · exact Nat.zero_le _
    · exact Nat.le_refl _
  · exact Nat.le_refl _
  · split <;> exact Nat.le_refl _
  · exact Nat.zero_le _
  · exact Nat.zero_le _

/-- The only segment mount takes as OPEN is the head it keeps (R120). -/
theorem keptHead_of_settledEntry {m : Mount} {i : Nat} (h : (settledEntry m i).state = .opened) :
    keptHead m = some i := by
  unfold settledEntry at h
  split at h
  · cases h
  · split at h
    · assumption
    · cases h
  · cases h
  · split at h <;> cases h
  · cases h
  · cases h

/-- At most one entry of the rebuilt table is OPEN (R120). -/
theorem countSegs_settled (m : Mount) (n : Nat) :
    countSegs ((List.range n).map (settledEntry m)) .opened ≤ 1 := by
  unfold countSegs
  rw [List.filter_map, List.length_map]
  cases kept : keptHead m with
  | none =>
    rw [List.filter_eq_nil_iff.2]
    · exact Nat.zero_le _
    · intro i _ opened
      have := keptHead_of_settledEntry (of_decide_eq_true opened)
      rw [kept] at this
      cases this
  | some head =>
    calc _ ≤ ((List.range n).filter fun i => decide (i = head)).length := by
          refine (List.monotone_filter_right _ fun i opened => ?_).length_le
          have := keptHead_of_settledEntry (of_decide_eq_true opened)
          rw [kept] at this
          cases this
          exact decide_eq_true rfl
      _ ≤ 1 := by
          have := List.nodup_iff_count_le_one.1 (List.nodup_range (n := n)) head
          rwa [List.count_eq_length_filter] at this

theorem settingValueOk_length {id : Byte} {value : Bytes} (ok : settingValueOk id value = true) :
    value.length ≤ 4096 := by
  unfold settingValueOk at ok
  split_ifs at ok
  · have := of_decide_eq_true ok
    omega
  · rcases of_decide_eq_true ok with rfl | rfl <;> exact Nat.le_of_ble_eq_true rfl
  · have := of_decide_eq_true ok
    omega
  · split at ok
    · exact Nat.le_of_ble_eq_true rfl
    · cases ok
  · have := (of_decide_eq_true ok).1
    omega

theorem rebuiltSettings_length {reads : List SegRead} {found : List Found} {t : Setting}
    (mem : t ∈ rebuiltSettings reads found) : t.value.length ≤ 4096 := by
  obtain ⟨id, -, rebuilt⟩ := List.mem_filterMap.1 mem
  unfold rebuiltSetting at rebuilt
  dsimp only at rebuilt
  split at rebuilt
  · split at rebuilt
    · rename_i ok
      cases rebuilt
      exact settingValueOk_length ok
    · cases rebuilt
  · cases rebuilt

/-- Everything read is decided and settled (R114 to R121). -/
theorem MountTableInv.rebuild {m : Mount} {cur : Option ArrayOp} (h : MountTableInv m cur) :
    MountTableInv m.rebuild none where
  table :=
    { oneOpen := countSegs_settled _ _
      used := fun e mem => by
        obtain ⟨i, -, rfl⟩ := List.mem_map.1 mem
        refine settledEntry_used ?_ i
        exact h.ends }
  settings := fun _ => rebuiltSettings_length
  ends := h.ends
  walk := h.walk
  opening := nofun

/-! ## Mount's steps -/

section Mount

variable {may : Change → Prop}

/-- Mount's working state is in order, and its table within bounds, where the state's are. -/
def MountKept (m : Mount) (s : State) : Prop :=
  (DirInv s → ordered m.dir) ∧ (SegInv s → MountTableInv m none)

theorem mountKept_of_mount {m : Mount} {s : State} (mount : s.mount = some m) : MountKept m s :=
  ⟨fun h => h.mounting m mount, fun h => (h.mount m mount).idle⟩

/-- Mount goes on in a phase other than one of `walk` and `openHead`. -/
theorem works_mountAsk {m : Mount} {s : State} (kept : MountKept m s) (phase : MountPhase)
    (op : Option ArrayOp) (inner : ∀ o, op = some o → o.ofMount = true)
    (walk : ∀ todo off, phase = .walk todo off → off ≤ 16384)
    (opening : ∀ i stamp, op ≠ some (.mountOpenedMark i stamp)) :
    Works may s (mountAsk { m with phase := phase } op s) :=
  .mount s _ op inner kept.1 fun h => (kept.2 h).go phase op walk fun i stamp g =>
    absurd g (opening i stamp)

theorem works_nextOpen {m : Mount} {s : State} (kept : MountKept m s) :
    Works may s (nextOpen m s) := by
  unfold nextOpen
  split
  · rename_i v head
    have none_ : headOf m.segs = none := by
      unfold headToOpen at head
      split at head
      · cases head
      · rename_i clear
        by_contra some_
        exact clear (.inl some_)
    refine .mount s { m with phase := .openHead v, stamp := m.stamp + 1 } _ ?_ kept.1 fun h => ?_
    · intro o same
      cases same
      rfl
    · have within := kept.2 h
      exact ⟨within.table, within.settings, within.ends, nofun, fun _ _ _ =>
        countSegs_of_headOf_none none_⟩
  · exact works_mountAsk kept .finished none nofun nofun nofun

theorem works_nextErase {m : Mount} {s : State} (kept : MountKept m s) (todo : List Nat) :
    Works may s (nextErase m todo s) := by
  unfold nextErase
  split
  · exact works_nextOpen kept
  · exact works_mountAsk kept _ _ (by rintro _ ⟨⟩; rfl) nofun nofun

theorem works_nextClose {m : Mount} {s : State} (kept : MountKept m s) (todo : List Nat) :
    Works may s (nextClose m todo s) := by
  unfold nextClose
  split
  · exact works_nextErase kept _
  · exact works_mountAsk kept _ _ (by rintro _ ⟨⟩; rfl) nofun nofun

theorem works_nextScan {m : Mount} {s : State} (kept : MountKept m s) (todo : List Loc) :
    Works may s (nextScan m todo s) := by
  unfold nextScan
  split
  · exact works_nextClose ⟨fun _ => ordered_rebuild m, fun h => (kept.2 h).rebuild⟩ _
  · exact works_mountAsk kept _ _ (by rintro _ ⟨⟩; rfl) nofun nofun

theorem works_nextWalk {m : Mount} {s : State} (kept : MountKept m s) (todo : List Nat) :
    Works may s (nextWalk m todo s) := by
  unfold nextWalk
  split
  · exact works_nextScan kept _
  · exact works_mountAsk kept _ _ (by rintro _ ⟨⟩; rfl)
      (by rintro _ _ ⟨⟩; exact Nat.le_of_ble_eq_true rfl) nofun

theorem works_descriptorRead {m : Mount} {s : State} (kept : MountKept m s) (seg : Nat)
    (bad : List Nat) : Works may s (descriptorRead m seg bad s) := by
  have read (r : List SegRead) : MountKept { m with reads := r } s :=
    ⟨kept.1, fun h => ⟨(kept.2 h).table, (kept.2 h).settings, (kept.2 h).ends, (kept.2 h).walk, nofun⟩⟩
  unfold descriptorRead
  dsimp only
  split
  · exact works_mountAsk (read _) _ _ (by rintro _ ⟨⟩; rfl) nofun nofun
  · exact works_nextWalk (read _) _

/-- A record a walk finds ends within its segment (R112). -/
theorem walkView_finds {a : ArraySeg} {off : Nat} {bad : List Nat} {r : Record}
    (h : walkView a off bad = .finds r) : off + r.size ≤ 16384 := by
  unfold walkView at h
  split at h
  · cases h
  · split at h
    · cases h
    · split at h
      · split at h
        · split at h
          · rename_i passes
            cases h
            have := (Bool.and_eq_true _ _ ▸ passes).1
            exact (of_decide_eq_true this).2.2
          · cases h
        · cases h
      · cases h

theorem works_walkRead {m : Mount} {s : State} (kept : MountKept m s) {seg off : Nat}
    {rest : List Nat} (phase : m.phase = .walk (seg :: rest) off) (bad : List Nat) :
    Works may s (walkRead m seg rest off bad s) := by
  unfold walkRead
  split
  · rename_i r found
    refine .mount s _ _ (by rintro _ ⟨⟩; rfl) kept.1 fun h => ?_
    have within := kept.2 h
    exact ⟨within.table, within.settings, within.ends,
      by rintro _ _ ⟨⟩; exact walkView_finds found, nofun⟩
  · refine works_nextWalk ?_ rest
    refine ⟨kept.1, fun h => ?_⟩
    have within := kept.2 h
    refine ⟨within.table, within.settings, fun e mem => ?_, within.walk, nofun⟩
    rcases List.mem_append.1 mem with mem | mem
    · exact within.ends e mem
    · obtain rfl := List.mem_singleton.1 mem
      exact within.walk _ _ phase

theorem works_mountReadDone (bad : List Nat) (s : State) :
    Works may s (mountReadDoneEffect bad s) := by
  unfold mountReadDoneEffect
  split
  · rename_i m _ mount
    have kept := mountKept_of_mount mount
    split
    · exact works_descriptorRead kept _ bad
    · rename_i phase
      exact works_walkRead kept phase bad
    · unfold scanRead
      dsimp only
      refine works_nextScan ?_ _
      refine ⟨kept.1, fun h => ?_⟩
      have within := kept.2 h
      exact ⟨within.table, within.settings, within.ends, within.walk, nofun⟩
    all_goals exact .refl s
  · exact .refl s

/-- Mount changes its table, and goes on. -/
theorem MountKept.withSegs {m : Mount} {s : State} (h : MountKept m s) {segs : List SegEntry}
    (table : SegInv s → TableInv segs) : MountKept { m with segs := segs } s :=
  ⟨h.1, fun inv => (h.2 inv).withSegs (table inv)⟩

theorem MountKept.retire {m : Mount} {s : State} (h : MountKept m s) (i : Nat) :
    MountKept (m.retire i) s :=
  ⟨h.1, fun inv =>
    have within := h.2 inv
    ⟨within.table.modify i nofun fun _ _ _ => Nat.zero_le _,
      within.settings, within.ends, within.walk, nofun⟩⟩

theorem MountKept.pool {m : Mount} {s : State} (h : MountKept m s) (i count : Nat) :
    MountKept (m.pool i count) s :=
  ⟨h.1, fun inv =>
    have within := h.2 inv
    ⟨within.table.modify i nofun fun _ _ _ => Nat.zero_le _,
      within.settings, within.ends, within.walk, nofun⟩⟩

theorem works_mountRetire {m : Mount} {s : State} (kept : MountKept m s) (i : Nat) :
    Works may s (mountRetire m i s) :=
  .mount s _ _ (by rintro _ ⟨⟩; rfl) (kept.retire i).1 fun h =>
    ((kept.retire i).2 h).go _ _ (((kept.retire i).2 h).walk) nofun

variable (allowed : may .array)
include allowed

theorem works_mountFilledMarkDone (ok : Bool) (s : State) :
    Works may s (mountFilledMarkDoneEffect ok s) := by
  unfold mountFilledMarkDoneEffect
  split
  · rename_i i m _ mount
    refine .trans (works_writeMark allowed i .filled 0 ok s) (works_nextClose ?_ _)
    refine (mountKept_of_mount (s := writeMark i .filled 0 ok s) mount).withSegs fun h => ?_
    exact (h.mount m mount).table.modify i (fun _ => id) fun _ _ => id
  · exact .refl s

theorem works_mountEraseDone (ok : Bool) (s : State) : Works may s (mountEraseDoneEffect ok s) := by
  unfold mountEraseDoneEffect
  split
  · rename_i i m _ mount
    split
    · refine .trans (works_eraseArray allowed i s) (.mount _ _ _ (by rintro _ ⟨⟩; rfl) ?_ ?_)
      · exact fun h => h.mounting m mount
      · exact fun h => (h.mount m mount).go _ _ (h.mount m mount).walk nofun
    · exact .trans (works_halfErase allowed i s)
        (works_mountRetire (mountKept_of_mount (s := halfErase i s) mount) i)
  · exact .refl s

theorem works_mountErasedMarkDone (ok : Bool) (s : State) :
    Works may s (mountErasedMarkDoneEffect ok s) := by
  unfold mountErasedMarkDoneEffect
  split
  · rename_i i count m _ mount
    have kept := mountKept_of_mount (s := writeMark i .erased count ok s) mount
    refine .trans (works_writeMark allowed i .erased count ok s) ?_
    dsimp only
    split
    · exact works_nextErase (kept.pool i count) _
    · exact works_mountRetire kept i
  · exact .refl s

theorem works_mountRetiredMarkDone (ok : Bool) (s : State) :
    Works may s (mountRetiredMarkDoneEffect ok s) := by
  unfold mountRetiredMarkDoneEffect
  split
  · rename_i i m _ mount
    exact .trans (works_writeMark allowed i .retired 0 ok s)
      (works_nextErase (mountKept_of_mount (s := writeMark i .retired 0 ok s) mount) _)
  · exact .refl s

theorem works_mountOpenedMarkDone (ok : Bool) (s : State) :
    Works may s (mountOpenedMarkDoneEffect ok s) := by
  unfold mountOpenedMarkDoneEffect
  split
  · rename_i i stamp m cur mount
    have kept := mountKept_of_mount (s := writeMark i .opened stamp ok s) mount
    refine .trans (works_writeMark allowed i .opened stamp ok s) ?_
    dsimp only
    split
    · refine works_nextOpen (kept.withSegs fun h => ?_)
      have within := h.mount m mount
      exact within.table.openAs (within.opening i stamp cur) i stamp
    · exact works_mountRetire kept i
  · exact .refl s

end Mount

theorem acts_resumeReclaim (s : State) : Acts s (resumeReclaim s) := by
  unfold resumeReclaim
  split
  · dsimp only
    rename_i v _
    have onVictim : Acts s { s with reclaim := s.reclaim.onVictim v } :=
      .reclaimKeeps s _ (.inr rfl)
    split
    · exact .trans onVictim (acts_stopPass _)
    · exact .trans onVictim (acts_walkStep _)
  · exact acts_backgroundEvent s

theorem does_mountEnd (s : State) : Does .mountEnd s (mountEndEffect s) := by
  unfold mountEndEffect
  split
  · rename_i m mount
    split
    · rename_i finished
      exact .claims (.install mount finished) (.trans (.raise _ _) (acts_resumeReclaim _)) (.inr rfl)
    · exact .works (.refl s)
  · exact .works (.refl s)

/-! ## The lines -/

theorem mountTableInv_start (op : Option ArrayOp) (other : ∀ i stamp, op ≠ some (.mountOpenedMark i stamp)) :
    MountTableInv Mount.start op :=
  ⟨⟨Nat.zero_le _, nofun⟩, nofun, nofun, nofun, fun i stamp same => absurd same (other i stamp)⟩

theorem works_startMount {may : Change → Prop} (s : State) : Works may s (startMount s) :=
  .mount s Mount.start (some .mountRead) (by rintro _ ⟨⟩; rfl) (fun _ => List.Pairwise.nil) fun _ =>
    mountTableInv_start _ nofun

section Lines

variable {c : Instr} (s : State)

/-- A reset, behind a change of the lines. -/
theorem Does.reset {s u t : State} (works : Works (MayChange c s) s u) (changes : changesArray c)
    (resets : Resets u t) : Does c s t := .handles (.resets works (.inl changes) resets)

theorem does_powerOn : Does .powerOn s (powerOnEffect s) := by
  have powered : Works (MayChange .powerOn s) s { s with powered := true } :=
    .lines s true s.rst s.free
  refine .reset powered trivial ?_
  unfold powerOnEffect
  dsimp only
  split
  · exact .held .powerOn .powerOn _ _
  · exact .started .powerOn

theorem does_powerLoss : Does .powerLoss s (powerLossEffect s) := by
  unfold powerLossEffect
  split
  · exact .reset (.refl s) trivial (.held .powerOn s.resetKind false _)
  · exact .works (.refl s)

theorem does_rstAssert {u : State} (works : Works (MayChange c s) s u) (changes : changesArray c) :
    Does c s (rstAssert u) := by
  unfold rstAssert
  split
  · exact .reset works changes (.held .rstLine .rstLine _ true)
  · exact .works (.trans works (.lines u u.powered true u.free))

theorem does_rstAsserted (width : PulseWidth) :
    Does (.rstAsserted width) s (rstAssertedEffect width s) := by
  unfold rstAssertedEffect
  split
  · exact .works (.refl s)
  · cases width with
    | full => exact does_rstAssert s (.refl s) trivial
    | short => exact .works (.refl s)
    | between =>
      have counted : Works (MayChange (.rstAsserted .between) s) s { s with free := s.free + 1 } :=
        .lines s s.powered s.rst (s.free + 1)
      dsimp only
      split
      · exact does_rstAssert s counted trivial
      · exact .works counted

theorem does_rstReleased : Does .rstReleased s (rstReleasedEffect s) := by
  unfold rstReleasedEffect
  split
  · have lowered : Works (MayChange .rstReleased s) s { s with rst := false } :=
      .lines s s.powered false s.free
    dsimp only
    split
    · exact .works (.trans lowered (.trans
        (.link { s with rst := false } s.sel (portAfterReset { s with rst := false }) s.inbound id)
        (works_startMount _)))
    · exact .works lowered
  · exact .works (.refl s)

theorem does_timerExpired : Does c s (timerExpired s) := by
  unfold timerExpired
  split
  · rename_i expired
    have assembling : s.engine.state = .assembling := by
      simp only [Bool.and_eq_true, decide_eq_true_eq] at expired
      exact expired.2
    have blocks : MayChange c s .blocks := fun _ inv => by
      rw [inv.engine] at assembling
      cases assembling
    exact .works (.acts blocks (acts_endRequest _ _ s))
  · exact .works (.refl s)

end Lines

/-- A completion has no effect while the part does not run. -/
theorem does_running {c : Instr} {s t : State} (does : Does c s t) :
    Does c s (if running s then t else s) := by
  split
  · exact does
  · exact .works (.refl s)

theorem does_getFirstReadDone (ok : Bool) (s : State) :
    Does (.getFirstReadDone ok) s (getFirstReadDoneEffect ok s) :=
  does_read (acts_getFirstReadDone ok s) (by
    unfold getFirstReadDoneEffect
    split
    · rename_i cur
      exact .inr ⟨_, cur, rfl⟩
    · exact .inl rfl)

theorem does_chunkReadDone (s : State) : Does .chunkReadDone s (chunkReadDoneEffect s) :=
  does_read (acts_chunkReadDoneEffect s) (by
    unfold chunkReadDoneEffect
    split
    · rename_i cur
      exact .inr ⟨_, cur, rfl⟩
    · exact .inl rfl)

theorem does_copyReadDone (ok : Bool) (s : State) :
    Does (.copyReadDone ok) s (copyReadDoneEffect ok s) :=
  does_read (acts_copyReadDone ok s) (by
    unfold copyReadDoneEffect
    split
    · rename_i cur
      exact .inr ⟨_, cur, rfl⟩
    · exact .inl rfl)

/-- What any command does. -/
theorem exec_does {c : Instr} {s t : State} (h : exec c s = .next t) : Does c s t := by
  cases c <;> cases h
  case send kind tag payload crc =>
    exact does_transaction _ s _ _ (.works (works_sendEffect s kind tag payload crc))
  case fetch => exact does_transaction _ s _ _ (.works (works_answerWith s _ _ _ _))
  case take number => exact does_transaction _ s _ _ (does_take s number)
  case poll => exact does_transaction _ s _ _ (.works (works_answerWith s _ _ _ _))
  case cancel tag => exact does_transaction _ s _ _ (does_cancel _ s tag)
  case unknownOperation op => exact does_transaction _ s _ _ (.works (.link s true _ s.inbound id))
  case transactionCut received open_ => exact does_transactionCut _ s received open_ rfl
  case powerOn => exact does_powerOn s
  case rstAsserted width => exact does_rstAsserted s width
  case rstReleased => exact does_rstReleased s
  case select => exact does_takeKind _ _ s (fun _ => rfl) (by decide)
  case reset => exact does_takeKind _ _ s (by decide) (fun _ => rfl)
  case unknownKind =>
    have other {kind : Byte} (mem : requestKinds.contains kind = true) {f : Frame}
        (fits : (!requestKinds.contains f.kind) = true) (same : f.kind = kind) : False := by
      rw [same, mem] at fits
      cases fits
    exact does_takeHead _ _ s (fun _ fits same => (other (by decide) fits same).elim)
      fun _ fits same => (other (by decide) fits same).elim
  case assemblyTimerExpiry => exact does_timerExpired s
  case recordProgramDone ok => exact does_running (does_recordProgramDone ok)
  case openedMarkDone ok => exact does_running (does_openedMarkDone ok)
  case filledMarkDone ok => exact does_running (does_filledMarkDone ok)
  case reclaimMarkDone ok => exact does_running (does_reclaimMarkDone ok)
  case eraseMarkDone ok => exact does_running (does_eraseMarkDone ok)
  case eraseDone ok => exact does_running (does_eraseDone ok)
  case erasedMarkDone ok => exact does_running (does_erasedMarkDone ok)
  case retiredMarkDone ok => exact does_running (does_retiredMarkDone ok)
  case getFirstReadDone ok => exact does_running (does_getFirstReadDone ok s)
  case chunkReadDone => exact does_running (does_chunkReadDone s)
  case copyReadDone ok => exact does_running (does_copyReadDone ok s)
  case mountReadDone bad => exact does_running (.works (works_mountReadDone bad s))
  case mountFilledMarkDone ok =>
    exact does_running (.works (works_mountFilledMarkDone (.inl trivial) ok s))
  case mountEraseDone ok => exact does_running (.works (works_mountEraseDone (.inl trivial) ok s))
  case mountErasedMarkDone ok =>
    exact does_running (.works (works_mountErasedMarkDone (.inl trivial) ok s))
  case mountRetiredMarkDone ok =>
    exact does_running (.works (works_mountRetiredMarkDone (.inl trivial) ok s))
  case mountOpenedMarkDone ok =>
    exact does_running (.works (works_mountOpenedMarkDone (.inl trivial) ok s))
  case mountEnd => exact does_running (does_mountEnd s)
  case powerLoss => exact does_powerLoss s
  case sendBadLength kind tag length =>
    exact does_transaction _ s _ _ (.works (.link s true _ s.inbound id))
  case selReleased => exact .works (works_selRelease s)
  all_goals exact does_takeKind _ _ s (by decide) (by decide)

end Sys2Proof.Machine
end

section
/-!
PROOFS. Every step keeps the queues and the array controller in order (R58, R148, R156, R157), and the
counters and the directory within their bounds (R2, R5, R82, R142, R153): over the primitives of `Moves`,
then over those of `Works`, then over what any command does.
-/

namespace Sys2Proof.Machine

open Sys2Proof

/-! ## Frames of the controller's operations -/

/-- A request changes the controller and the reclaim unit's state alone. -/
theorem ask_frame (op : ArrayOp) (s : State) :
    ∃ ctrl st, ask op s = { s with ctrl := ctrl, reclaim := { s.reclaim with state := st } } := by
  unfold ask arrive pauseErase
  dsimp only
  split
  · split
    · exact ⟨_, _, rfl⟩
    · split
      · split <;> exact ⟨_, _, rfl⟩
      · exact ⟨_, _, rfl⟩
    · exact ⟨_, _, rfl⟩
  · exact ⟨_, _, rfl⟩

/-! ## The claims of R52 -/

/-- What a claim changes: bytes moved from dead to live, entries and settings put, beside what blocks
do. -/
inductive Counts : State → State → Prop
  | acts {s t : State} : Acts s t → Counts s t
  | trans {s t u : State} : Counts s t → Counts t u → Counts s u
  | addLive (s : State) (i n : Nat) : Counts s (Machine.addLive i n s)
  | dirPut (s : State) (e : Entry) : Counts s { s with dir := Machine.dirPut s.dir e }
  | settingsPut (s : State) (t : Setting) (short : SegInv s → t.value.length ≤ 4096) :
      Counts s { s with prot := { s.prot with settings := Machine.settingsPut s.prot.settings t } }

theorem Counts.refl (s : State) : Counts s s := .acts (.refl s)

theorem Counts.moves {s t : State} (h : Counts s t) : Moves s t := by
  induction h with
  | acts h => exact h.moves
  | trans _ _ ih₁ ih₂ => exact .trans ih₁ ih₂
  | addLive s i n => exact moves_addLive i n s
  | dirPut s e => exact .dirPut s e
  | settingsPut s t => exact .settingsPut s t

theorem acts_dropPrevious (ns : Nat) (key : Bytes) (s : State) : Acts s (dropPrevious ns key s) := by
  unfold dropPrevious
  split
  · split
    · exact acts_subLive _ _ s
    · exact .refl s
  · exact .refl s

theorem counts_putCompletion (ns : Nat) (key : Bytes) (sn length : Nat) (loc : Loc) (counted : Bool)
    (s : State) : Counts s (putCompletion ns key sn length loc counted s) := by
  unfold putCompletion
  dsimp only
  refine .trans (.acts (acts_dropPrevious ns key s)) (.trans ?_ (.dirPut _ _))
  split
  · exact .refl _
  · exact .addLive _ _ _

theorem counts_deleteCompletion (ns : Nat) (key : Bytes) (sn : Nat) (loc : Loc) (counted : Bool)
    (s : State) : Counts s (deleteCompletion ns key sn loc counted s) := by
  unfold deleteCompletion
  dsimp only
  refine .trans (.acts (acts_dropPrevious ns key s)) (.trans ?_ (.dirPut _ _))
  split
  · exact .acts (acts_subLive _ _ _)
  · exact .refl _

theorem counts_applyPending (list : List Pending) (s : State) : Counts s (applyPending list s) := by
  induction list generalizing s with
  | nil => exact .refl s
  | cons p rest ih =>
    unfold applyPending
    dsimp only
    refine .trans ?_ (ih _)
    split
    · exact counts_putCompletion _ _ _ _ _ _ s
    · exact counts_deleteCompletion _ _ _ _ _ s

/-- The copy in hand changes its owner at most. -/
theorem acts_ownerToDirectory (s : State) :
    Acts s { s with group := Group.reset, reclaim := s.reclaim.ownerToDirectory } :=
  .trans (.group s Group.reset (Nat.zero_le _)) (.reclaim _ _ fun c b hc hb h => by
    obtain ⟨c', copy, same⟩ := Option.map_eq_some_iff.1 hc
    refine h.copy c' b copy ?_
    split at same
    · rw [← same] at hb
      exact hb
    · rw [same]
      exact hb)

theorem counts_commitApplication (s : State) : Counts s (commitApplication s) :=
  .trans (counts_applyPending s.group.list s) (.acts (acts_ownerToDirectory _))

/-- The earlier CURRENT entry of the name a staged record has is dead (R95). -/
theorem acts_supersede (p : Pending) (s : State) :
    Acts s (match currentPending s.group.list p.ns p.key with
      | some q => subLive q.loc.seg q.recordSize s
      | none => s) := by
  split
  · exact acts_subLive _ _ s
  · exact .refl s

theorem counts_stage (p : Pending) (s : State) : Counts s (stage p s) := by
  unfold stage
  dsimp only
  exact .trans (.acts (acts_supersede p s)) (.trans (.addLive _ _ _)
    (.acts (.group _ _ (by exact Nat.le_refl _))))

theorem acts_deadenAll (dir : List Entry) (s : State) : Acts s (deadenAll dir s) := by
  induction dir generalizing s with
  | nil => exact .refl s
  | cons e rest ih =>
    unfold deadenAll
    refine .trans ?_ (ih _)
    split
    · exact acts_subLive _ _ s
    · exact .refl s

theorem acts_formatClearing (s : State) : Acts s (formatClearing s) := by
  have dropped := Acts.dirDrop (deadenAll s.dir s) fun _ => false
  rw [List.filter_false] at dropped
  exact .trans (acts_deadenAll s.dir s) dropped

/-- The setting of the id that a settings write has is dead (R129). -/
theorem acts_dropSetting (id : Byte) (s : State) :
    Acts s (match settingOf s.prot.settings id with
      | some old => subLive old.loc.seg old.recordSize s
      | none => s) := by
  split
  · exact acts_subLive _ _ s
  · exact .refl s

theorem counts_settingsWrite {g : Grant} (t : Setting) {s : State} (grant : s.log.grant = some g)
    (value : t.value = g.record.value) : Counts s (settingsWrite t s) := by
  unfold settingsWrite
  dsimp only
  refine .trans (.acts (acts_dropSetting t.id s)) (.trans (.addLive _ _ _)
    (.settingsPut _ t fun h => ?_))
  rw [value]
  refine (h.grant g ?_).2
  dsimp only [addLive, modSeg]
  split <;> exact grant

/-- The claim of the engine's record (R52). -/
theorem counts_engineClaim {g : Grant} (j : Job) (loc : Loc) {s : State}
    (grant : s.log.grant = some g) : Counts s (engineClaim j g.record loc s) := by
  unfold engineClaim
  split
  · split
    · exact counts_stage _ s
    · exact counts_putCompletion _ _ _ _ _ _ s
  · split
    · exact counts_stage _ s
    · exact counts_deleteCompletion _ _ _ _ _ s
  · split
    · exact .refl s
    · exact counts_commitApplication s
  · exact counts_settingsWrite _ grant rfl
  · exact .acts (acts_formatClearing s)
  · exact counts_settingsWrite _ grant rfl

/-- A copy's bytes move from where it was read to where it is (R77). -/
theorem counts_moved (c : Copy) (dest : Loc) (s : State) :
    Counts s (subLive c.loc.seg c.size (addLive dest.seg c.size s)) :=
  .trans (.addLive s _ _) (.acts (acts_subLive _ _ _))

/-- The relocation of a copy (R77). -/
theorem counts_relocate (c : Copy) (dest : Loc) (s : State) : Counts s (relocate c dest s) := by
  unfold relocate
  split
  · unfold dirRelocation
    split
    · split
      · exact .trans (.dirPut s _) (counts_moved c dest _)
      · exact .refl s
    · exact .refl s
  · unfold groupRelocation
    split
    · exact .trans (counts_moved c dest s) (.acts (.group _ _ (by exact Nat.le_refl _)))
    · exact .refl s
  · unfold settingsRelocation
    split
    · rename_i t named
      exact .trans (counts_moved c dest s) (.settingsPut _ { t with loc := dest } fun h =>
        h.settings t (mem_of_settingMatch named))
    · exact .refl s

/-- The claims that follow a record's program: the bytes stand in the array, the controller goes on, and
the owner takes the claim (R52). -/
theorem Claims.cases {s u : State} (h : Claims s u) :
    (∃ loc r, s.ctrl.cur = some (.programRecord loc r) ∧
      Counts (writeSlot loc r true s) u) ∨
    ∃ m, s.mount = some m ∧ m.phase = .finished ∧ u = Machine.install m s := by
  cases h with
  | @engine loc r g j cur grant claimant job =>
    exact .inl ⟨loc, r, cur, .trans (.acts (.completeOp _))
      (counts_engineClaim j loc (by rw [completeOp_log]; exact grant))⟩
  | @copy loc r g c cur grant claimant copy =>
    exact .inl ⟨loc, r, cur, .trans (.acts (.completeOp _)) (counts_relocate c loc _)⟩
  | install mount finished => exact .inr ⟨_, mount, finished, rfl⟩

/-! ## The resets -/

theorem abortMark_frame (i : Nat) (p : MarkPos) (carried : Nat) (s : State) :
    ∃ array free, abortMark i p carried s = { s with array := array, free := free } := by
  unfold abortMark
  dsimp only
  split <;> exact ⟨_, _, rfl⟩

/-- An operation aborted changes the array and the free values alone. -/
theorem abortOp_frame (op : ArrayOp) (s : State) :
    ∃ array free, abortOp op s = { s with array := array, free := free } := by
  cases op
  case programRecord | erase | mountErase => exact ⟨_, _, rfl⟩
  case openedMark | filledMark | reclaimMark | eraseMark | erasedMark | retiredMark | mountOpenedMark
    | mountFilledMark | mountErasedMark | mountRetiredMark =>
    unfold abortOp
    exact abortMark_frame _ _ _ s
  all_goals exact ⟨s.array, s.free, rfl⟩

/-- A reset changes the array and the free values by the operations it aborts. -/
theorem abortArray_frame (s : State) :
    ∃ array free, abortArray s = { s with array := array, free := free } := by
  unfold abortArray
  dsimp only
  have halved (i : Nat) (u : State) (h : ∃ array free, u = { s with array := array, free := free }) :
      ∃ array free, halfErase i u = { s with array := array, free := free } := by
    obtain ⟨_, _, rfl⟩ := h
    exact ⟨_, _, rfl⟩
  have aborted : ∃ array free, (match s.ctrl.cur with
      | some op => abortOp op s
      | none => s) = { s with array := array, free := free } := by
    split
    · exact abortOp_frame _ s
    · exact ⟨s.array, s.free, rfl⟩
  split
  · exact halved _ _ aborted
  · exact aborted

/-- What a reset leaves of the part: the blocks as after reset, mount to start or just started. -/
structure AfterReset (s t : State) : Prop where
  mounting : t.log.device = .mounting
  inv : MountingInv t
  inbound : t.inbound = []
  fails : t.prot.unlockFails = 0 ∨ t.prot.unlockFails = s.prot.unlockFails
  pauses : t.ctrl.pauseCount = 0
  array : t.array = (abortArray s).array
  pending : t.pending = s.pending
  working : t.ctrl.cur = none ∧ t.mount = none ∨
    t.ctrl.cur = some .mountRead ∧ t.mount = some Mount.start

theorem Resets.afterReset {s t : State} (h : Resets s t) : AfterReset s t := by
  obtain ⟨array, free, aborted⟩ := abortArray_frame s
  have fails (kind : ResetKind) :
      (resetBlocks kind s).prot.unlockFails = 0 ∨
        (resetBlocks kind s).prot.unlockFails = s.prot.unlockFails := by
    unfold resetBlocks
    rw [aborted]
    dsimp only [Protection.reset]
    split
    · exact .inr rfl
    · exact .inl rfl
  have pending (kind : ResetKind) : (resetBlocks kind s).pending = s.pending := by
    unfold resetBlocks
    rw [aborted]
  cases h with
  | held kind stated powered rst =>
    exact ⟨rfl, ⟨rfl, rfl, rfl, rfl, rfl, rfl, rfl, rfl, rfl, rfl, rfl, rfl, nofun⟩, rfl, fails kind,
      rfl, rfl, pending kind, .inl ⟨rfl, rfl⟩⟩
  | started kind =>
    exact ⟨rfl, ⟨rfl, rfl, rfl, rfl, rfl, rfl, rfl, rfl, rfl, rfl, rfl, rfl, by rintro _ ⟨⟩; rfl⟩, rfl,
      fails kind, rfl, rfl, pending kind, .inr ⟨rfl, rfl⟩⟩

end Sys2Proof.Machine
end

section
/-!
PROOFS. What every command leaves unchanged: the queue of commands (O2), the request context (O8), the
array (O9) and the lockdown flags (O10), and the blocks while the device is MOUNTING (O7).
-/

namespace Sys2Proof.Machine

open Sys2Proof

/-- The request context of two states is the same (R153). -/
def SameContext (s t : State) : Prop :=
  t.engine.ns = s.engine.ns ∧ t.engine.mode = s.engine.mode ∧ t.engine.watermark = s.engine.watermark

/-- What a command that ends in no reset leaves unchanged, but for the changes it may make. -/
structure Leaves (may : Change → Prop) (s t : State) : Prop where
  pending : t.pending = s.pending
  context : may .context ∨ SameContext s t
  array : may .array ∨ t.array = s.array
  lockdowns : t.prot.lockdowns &&& s.prot.lockdowns = s.prot.lockdowns

theorem Leaves.refl (may : Change → Prop) (s : State) : Leaves may s s :=
  ⟨rfl, .inr ⟨rfl, rfl, rfl⟩, .inr rfl, BitVec.and_self⟩

theorem Leaves.trans {may : Change → Prop} {s t u : State} (h : Leaves may s t)
    (k : Leaves may t u) : Leaves may s u where
  pending := k.pending.trans h.pending
  context := by
    rcases h.context with allowed | ⟨ns, mode, mark⟩
    · exact .inl allowed
    · exact k.context.imp_right fun ⟨ns', mode', mark'⟩ =>
        ⟨ns'.trans ns, mode'.trans mode, mark'.trans mark⟩
  array := by
    rcases h.array with allowed | same
    · exact .inl allowed
    · exact k.array.imp_right fun same' => same'.trans same
  lockdowns := by
    rw [← h.lockdowns, ← BitVec.and_assoc, k.lockdowns]

theorem SameOutside.leaves {s t : State} (may : Change → Prop) (h : SameOutside s t) :
    Leaves may s t :=
  ⟨h.pending, .inr ⟨h.ns, h.mode, h.watermark⟩, .inr h.array, by rw [h.lockdowns, BitVec.and_self]⟩

theorem Works.leaves {may : Change → Prop} {s t : State} (h : Works may s t) : Leaves may s t := by
  induction h with
  | refl s => exact .refl may s
  | trans _ _ ih₁ ih₂ => exact ih₁.trans ih₂
  | acts _ h => exact h.moves.sameOutside.leaves may
  | link | lines | reserve | mount => exact ⟨rfl, .inr ⟨rfl, rfl, rfl⟩, .inr rfl, BitVec.and_self⟩
  | @freed s _ rest =>
    have dropped : SameOutside s { s with replies := rest } := by constructor <;> rfl
    exact (dropped.trans (sameOutside_moveNotices s.notices _)).leaves may
  | context s ns mode mark _ allowed => exact ⟨rfl, .inl allowed, .inr rfl, BitVec.and_self⟩
  | guards s locks downs gate fails _ held => exact ⟨rfl, .inr ⟨rfl, rfl, rfl⟩, .inr rfl, held⟩
  | array s array free allowed => exact ⟨rfl, .inr ⟨rfl, rfl, rfl⟩, .inl allowed, BitVec.and_self⟩
  | ended s => exact (sameOutside_completeOp s).leaves may

/-- A claim leaves what blocks leave, and changes the array by the record programmed alone. -/
theorem Claims.leaves {s u : State} (h : Claims s u) :
    u.pending = s.pending ∧ SameContext s u ∧ u.prot.lockdowns = s.prot.lockdowns := by
  rcases h.cases with ⟨loc, r, -, counts⟩ | ⟨m, -, -, rfl⟩
  · have outside := counts.moves.sameOutside
    exact ⟨outside.pending, ⟨outside.ns, outside.mode, outside.watermark⟩, outside.lockdowns⟩
  · exact ⟨rfl, ⟨rfl, rfl, rfl⟩, rfl⟩

/-- What a command leaves, unless it ends in a reset, which had to be allowed. -/
theorem Does.leaves {c : Instr} {s t : State} (h : Does c s t) :
    Leaves (MayChange c s) s t ∨
      MayChange c s .array ∧ ∃ u, u.pending = s.pending ∧ AfterReset u t := by
  rcases h with (works | ⟨works, allowed, resets⟩) | ⟨claims, acts, array⟩
  · exact .inl works.leaves
  · exact .inr ⟨allowed, _, works.leaves.pending, resets.afterReset⟩
  · obtain ⟨pending, context, lockdowns⟩ := claims.leaves
    refine .inl (Leaves.trans ⟨pending, .inr context, ?_, ?_⟩ (acts.moves.sameOutside.leaves _))
    · exact array.imp .inl id
    · rw [lockdowns, BitVec.and_self]

/-- Settles O2: an outcome is a next state by the form of `exec`; what it leaves is `Does.leaves`. -/
theorem everyCommandCompletes : Obligations.EveryCommandCompletes := by
  intro c s
  have completes : ∃ t, exec c s = .next t := by
    cases c <;> exact ⟨_, rfl⟩
  obtain ⟨t, next⟩ := completes
  refine ⟨t, next, ?_⟩
  rcases (exec_does next).leaves with leaves | ⟨-, u, pending, reset⟩
  · exact leaves.pending
  · exact reset.pending.trans pending

/-- Settles O8: a change of the context had to be allowed, and a reset leaves MOUNTING. -/
theorem onlySelectChangesTheContext : Obligations.OnlySelectChangesTheContext := by
  intro c s t next other quiet
  rcases (exec_does next).leaves with leaves | ⟨-, u, -, reset⟩
  · refine .inl (leaves.context.resolve_left ?_)
    rintro (select | ⟨number, f, take, breaking, isSelect⟩)
    · exact other select
    · exact quiet number f take breaking isSelect
  · have engine := reset.inv.engine
    exact .inr ⟨reset.mounting, by rw [engine]; rfl, by rw [engine]; rfl, by rw [engine]; rfl⟩

/-- Settles O9: a change of the array, and a reset, had to be allowed. -/
theorem onlyCompletionsAndResetsChangeTheArray :
    Obligations.OnlyCompletionsAndResetsChangeTheArray := by
  intro c s t next quiet notListed
  have barred : ¬ MayChange c s .array := by
    rintro (changes | breaking)
    · refine notListed ?_
      unfold changesArray at changes
      split at changes
      case h_19 => exact changes.elim
      all_goals simp
    · exact breaking quiet
  rcases (exec_does next).leaves with leaves | ⟨allowed, -⟩
  · exact leaves.array.resolve_left barred
  · exact absurd allowed barred

/-- A reset clears both sets of flags (R132). -/
theorem AfterReset.clears {s t : State} (h : AfterReset s t) :
    t.prot.lockdowns = 0 ∧ t.prot.sessionLocks = 0 ∧ t.log.device = .mounting := by
  rw [h.inv.prot]
  exact ⟨rfl, rfl, h.mounting⟩

theorem clears_of_exec {c : Instr} {s u t : State} (next : exec c s = .next t) (resets : Resets u t) :
    ∃ t, exec c s = .next t ∧ t.prot.lockdowns = 0 ∧ t.prot.sessionLocks = 0 ∧
      t.log.device = .mounting := ⟨t, next, resets.afterReset.clears⟩

/-- Settles O10: the flags are kept by everything but a reset, and the four resets leave what `Resets`
says. -/
theorem lockdownsHoldUntilReset : Obligations.LockdownsHoldUntilReset := by
  refine ⟨fun c s t next => ?_, fun s => ?_⟩
  · rcases (exec_does next).leaves with leaves | ⟨-, u, -, reset⟩
    · exact .inl leaves.lockdowns
    · exact .inr reset.clears
  · dsimp only
    refine ⟨?_, fun powered => ?_, fun powered released => ?_, fun f rest atTake kind form => ?_⟩
    · have resets : ∃ u, Resets u (powerOnEffect s) := by
        unfold powerOnEffect
        dsimp only
        split
        · exact ⟨_, .held .powerOn .powerOn _ _⟩
        · exact ⟨_, .started .powerOn⟩
      obtain ⟨u, resets⟩ := resets
      exact clears_of_exec rfl resets
    · refine clears_of_exec rfl (u := s) ?_
      unfold powerLossEffect
      rw [if_pos powered]
      exact .held .powerOn s.resetKind false _
    · refine clears_of_exec rfl (u := s) ?_
      unfold rstAssertedEffect rstAssert
      rw [released, if_neg (by decide), if_pos powered]
      exact .held .rstLine .rstLine _ true
    · refine clears_of_exec (take_reset atTake kind) (u := { s with inbound := rest }) ?_
      unfold handleReset
      rw [if_neg (by rw [form]; decide)]
      exact .started .resetRequest

/-! ## While the device is MOUNTING -/

/-- The blocks inside the part enter MOUNTING by no change of their own. -/
theorem Acts.device {s t : State} (h : Acts s t) (mounted : s.log.device ≠ .mounting) :
    t.log.device ≠ .mounting := by
  induction h with
  | trans _ _ ih₁ ih₂ => exact ih₂ (ih₁ mounted)
  | blocks s e g l r _ _ _ _ _ _ _ device => exact device mounted
  | changeHead s v stamp =>
    unfold Machine.changeHead
    dsimp only
    split <;> exact mounted
  | ask s op =>
    obtain ⟨_, _, same⟩ := ask_frame op s
    rw [same]
    exact mounted
  | completeOp s => rwa [completeOp_log]
  | raise s n =>
    obtain ⟨_, _, _, same⟩ := raise_frame n s
    rw [same]
    exact mounted
  | refl | modSeg | occupy | dropGetReads | enqueue | dirDrop => exact mounted

theorem Counts.device {s t : State} (h : Counts s t) (mounted : s.log.device ≠ .mounting) :
    t.log.device ≠ .mounting := by
  induction h with
  | acts h => exact h.device mounted
  | trans _ _ ih₁ ih₂ => exact ih₂ (ih₁ mounted)
  | addLive | dirPut | settingsPut => exact mounted

theorem Works.device {may : Change → Prop} {s t : State} (h : Works may s t)
    (mounted : s.log.device ≠ .mounting) : t.log.device ≠ .mounting := by
  induction h with
  | trans _ _ ih₁ ih₂ => exact ih₂ (ih₁ mounted)
  | acts _ h => exact h.device mounted
  | @freed s _ rest =>
    obtain ⟨_, _, _, same⟩ := moveNotices_frame s.notices { s with replies := rest }
    rw [drainNotices, same]
    exact mounted
  | ended s => rwa [completeOp_log]
  | refl | link | lines | context | guards | reserve | array | mount => exact mounted

/-- A command that may not change the blocks keeps them as after reset. -/
theorem Works.mountingInv {may : Change → Prop} {s t : State} (h : Works may s t)
    (barred : ¬ may .blocks) (inv : MountingInv s) : MountingInv t := by
  induction h with
  | refl s => exact inv
  | trans _ _ ih₁ ih₂ => exact ih₂ (ih₁ inv)
  | acts blocks | freed blocks | context _ _ _ _ blocks | guards _ _ _ _ _ blocks
  | reserve _ _ _ blocks => exact absurd blocks barred
  | link | lines | array =>
    exact ⟨inv.engine, inv.replies, inv.replySeq, inv.notices, inv.dir, inv.group, inv.prot, inv.log,
      inv.reclaim, inv.queue, inv.held, inv.unpaused, inv.working⟩
  | ended s queue held paused =>
    rw [completeOp_rest s queue held paused]
    exact ⟨inv.engine, inv.replies, inv.replySeq, inv.notices, inv.dir, inv.group, inv.prot, inv.log,
      inv.reclaim, inv.queue, inv.held, inv.unpaused, nofun⟩
  | mount s m op inner =>
    exact ⟨inv.engine, inv.replies, inv.replySeq, inv.notices, inv.dir, inv.group, inv.prot, inv.log,
      inv.reclaim, inv.queue, inv.held, inv.unpaused, inner⟩

/-- Behind a claim the device is not MOUNTING, unless the blocks were not as after reset. -/
theorem Claims.device {s u : State} (h : Claims s u)
    (held : s.log.device = .mounting → MountingInv s) : u.log.device ≠ .mounting := by
  rcases h.cases with ⟨loc, r, cur, counts⟩ | ⟨m, -, -, rfl⟩
  · refine counts.device fun mounting => ?_
    have := (held mounting).working _ cur
    cases this
  · unfold Machine.install
    dsimp only
    split <;> nofun

theorem Does.mountingInv {c : Instr} {s t : State} (h : Does c s t)
    (held : s.log.device = .mounting → MountingInv s) (mounting : t.log.device = .mounting) :
    MountingInv t := by
  rcases h with (works | ⟨-, -, resets⟩) | ⟨claims, acts, -⟩
  · by_cases entered : s.log.device = .mounting
    · exact works.mountingInv (fun blocks => blocks entered (held entered)) (held entered)
    · exact absurd mounting (works.device entered)
  · exact resets.afterReset.inv
  · exact absurd mounting (acts.device (claims.device held))

/-- What holds before a step and after any command holds after the step, where the queue of commands
does not matter. -/
theorem of_step {P : State → Prop} {s t : State} (h : step s = .next t) (before : P s)
    (queue : ∀ rest, P s → P { s with pending := rest })
    (keeps : ∀ c s t, exec c s = .next t → P s → P t) : P t := by
  unfold step at h
  split at h
  · cases h
    exact before
  · exact keeps _ _ _ h (queue _ before)

/-- Settles O7. -/
theorem everyStepHoldsTheBlocksWhileMounting : Obligations.EveryStepHoldsTheBlocksWhileMounting := by
  intro s t held next
  refine of_step (P := fun s => s.log.device = .mounting → MountingInv s) next held ?_ ?_
  · intro rest held mounting
    have inv := held mounting
    exact ⟨inv.engine, inv.replies, inv.replySeq, inv.notices, inv.dir, inv.group, inv.prot, inv.log,
      inv.reclaim, inv.queue, inv.held, inv.unpaused, inv.working⟩
  · exact fun c s t next held mounting => (exec_does next).mountingInv held mounting

end Sys2Proof.Machine
end

section
/-!
PROOFS. Every step keeps the queues in order (R148, R156, R157), and one request of each block at the array
controller (R58): O4.
-/

namespace Sys2Proof.Machine

open Sys2Proof

/-! ## The reply numbers -/

theorem consecutive_succ (counter : Byte) (n : Nat) :
    consecutive (counter + 1) (n + 1) = consecutive counter n ++ [counter] := by
  have shift : counter + 1 - BitVec.ofNat 8 (n + 1) = counter - BitVec.ofNat 8 n := by
    change counter + 1#8 - _ = _
    rw [BitVec.ofNat_add]
    ring
  simp only [consecutive, List.range_succ, List.map_append, shift, List.map_cons, List.map_nil,
    BitVec.sub_add_cancel]

theorem consecutive_cons (counter : Byte) (n : Nat) :
    consecutive counter (n + 1) = (counter - BitVec.ofNat 8 (n + 1)) :: consecutive counter n := by
  have shift (i : Nat) : counter - BitVec.ofNat 8 (n + 1) + BitVec.ofNat 8 (i + 1) =
      counter - BitVec.ofNat 8 n + BitVec.ofNat 8 i := by
    rw [BitVec.ofNat_add, BitVec.ofNat_add i]
    ring
  simp only [consecutive, List.range_succ_eq_map, List.map_cons, List.map_map, Function.comp_def, shift]
  simp

/-! ## The queues -/

/-- The inbound queue and the reply queue within their sizes, the reply numbers consecutive up to the
counter; whatever notices are pending. -/
structure RepliesInv (s : State) : Prop where
  inbound : s.inbound.length ≤ 8
  replies : s.replies.length ≤ 8
  numbers : s.replies.map Reply.seq = consecutive s.replySeq s.replies.length

theorem QueueInv.repliesInv {s : State} (h : QueueInv s) : RepliesInv s :=
  ⟨h.inbound, h.replies, h.numbers⟩

/-- A frame enters a free slot under the counter's number (R156). -/
theorem RepliesInv.enqueue {s : State} (h : RepliesInv s) (o : Out) (free : slotFree s = true) :
    RepliesInv (enqueue o s) := by
  have free : s.replies.length < 8 := of_decide_eq_true free
  refine ⟨h.inbound, ?_, ?_⟩
  · simp only [Machine.enqueue, List.length_append, List.length_singleton]
    omega
  · simp only [Machine.enqueue, List.map_append, h.numbers, List.length_append, List.length_singleton,
      consecutive_succ, List.map_cons, List.map_nil]

/-- Behind notices that moved, none is pending beside a free slot (R157). -/
theorem RepliesInv.moveNotices {s : State} (h : RepliesInv s) (pending : List Notice) :
    QueueInv (moveNotices pending s) := by
  induction pending generalizing s with
  | nil => exact ⟨h.inbound, h.replies, h.numbers, fun _ => rfl⟩
  | cons n rest ih =>
    unfold Machine.moveNotices
    split
    · exact ih (h.enqueue n.out ‹_›)
    · rename_i full
      refine ⟨h.inbound, h.replies, h.numbers, fun free => absurd ?_ full⟩
      exact decide_eq_true free

/-- The head leaves (R171). -/
theorem RepliesInv.tail {s : State} (h : RepliesInv s) {r : Reply} {rest : List Reply}
    (head : s.replies = r :: rest) : RepliesInv { s with replies := rest } := by
  have numbers := h.numbers
  rw [head, List.map_cons, List.length_cons, consecutive_cons] at numbers
  have replies := h.replies
  rw [head, List.length_cons] at replies
  exact ⟨h.inbound, by dsimp only; omega, (List.cons.inj numbers).2⟩

theorem Moves.queueInv {s t : State} (h : Moves s t) (inv : QueueInv s) : QueueInv t := by
  induction h with
  | trans _ _ ih₁ ih₂ => exact ih₂ (ih₁ inv)
  | ask s op =>
    obtain ⟨_, _, same⟩ := ask_frame op s
    rw [same]
    exact ⟨inv.inbound, inv.replies, inv.numbers, inv.notices⟩
  | completeOp s =>
    obtain ⟨_, _, same⟩ := completeOp_frame s
    rw [same]
    exact ⟨inv.inbound, inv.replies, inv.numbers, inv.notices⟩
  | enqueue s o free quiet =>
    obtain ⟨inbound, replies, numbers⟩ := inv.repliesInv.enqueue o free
    exact ⟨inbound, replies, numbers, fun _ => quiet⟩
  | raise s n =>
    exact RepliesInv.moveNotices (s := { s with notices := addNotice n s.notices })
      ⟨inv.inbound, inv.replies, inv.numbers⟩ _
  | refl | blocks | dropGetReads | dirPut | dirDrop | settingsPut =>
    exact ⟨inv.inbound, inv.replies, inv.numbers, inv.notices⟩

theorem Works.queueInv {may : Change → Prop} {s t : State} (h : Works may s t) (inv : QueueInv s) :
    QueueInv t := by
  induction h with
  | trans _ _ ih₁ ih₂ => exact ih₂ (ih₁ inv)
  | acts _ h => exact h.moves.queueInv inv
  | link s sel port inbound room =>
    exact ⟨room inv.inbound, inv.replies, inv.numbers, inv.notices⟩
  | freed _ head => exact (inv.repliesInv.tail head).moveNotices _
  | ended s => exact (Moves.completeOp s).queueInv inv
  | refl | lines | context | guards | reserve | array | mount =>
    exact ⟨inv.inbound, inv.replies, inv.numbers, inv.notices⟩

theorem AfterReset.queueInv {s t : State} (h : AfterReset s t) : QueueInv t where
  inbound := by
    rw [h.inbound]
    exact Nat.zero_le _
  replies := by
    rw [h.inv.replies]
    exact Nat.zero_le _
  numbers := by
    rw [h.inv.replies]
    rfl
  notices := fun _ => h.inv.notices

theorem Claims.queueInv {s u : State} (h : Claims s u) (inv : QueueInv s) : QueueInv u := by
  rcases h.cases with ⟨loc, r, -, counts⟩ | ⟨m, -, -, rfl⟩
  · exact counts.moves.queueInv ⟨inv.inbound, inv.replies, inv.numbers, inv.notices⟩
  · exact ⟨inv.inbound, inv.replies, inv.numbers, inv.notices⟩

theorem exec_queueInv {c : Instr} {s t : State} (next : exec c s = .next t) (inv : QueueInv s) :
    QueueInv t := by
  rcases exec_does next with (works | ⟨-, -, resets⟩) | ⟨claims, acts, -⟩
  · exact works.queueInv inv
  · exact resets.afterReset.queueInv
  · exact acts.moves.queueInv (claims.queueInv inv)

/-! ## The array controller -/

/-- Two requests may be outstanding together (R58). -/
def ArrayOp.Apart (a b : ArrayOp) : Prop := a.requester ≠ b.requester ∨ a.pairs b = true

theorem ArrayOp.pairs_comm (a b : ArrayOp) : a.pairs b = b.pairs a := by
  cases a <;> cases b <;> rfl

theorem ArrayOp.Apart.symm {a b : ArrayOp} (h : a.Apart b) : b.Apart a :=
  h.imp Ne.symm fun pairs => by rwa [ArrayOp.pairs_comm]

theorem Controller.admits_iff {c : Controller} {op : ArrayOp} :
    c.admits op = true ↔ ∀ o ∈ c.outstanding, o.Apart op := by
  simp [Controller.admits, ArrayOp.Apart, List.all_eq_true]

/-- The requests outstanding of another controller are among these, in whatever order. -/
theorem apart_of_subperm {l k : List ArrayOp} (h : l.Pairwise ArrayOp.Apart)
    (sub : k.Subperm l) : k.Pairwise ArrayOp.Apart := by
  obtain ⟨k', perm, sublist⟩ := sub
  exact (h.sublist sublist).perm perm fun h => h.symm

/-- A request that is admitted is apart from those outstanding. -/
theorem apart_append {c : Controller} (h : c.outstanding.Pairwise ArrayOp.Apart) {op : ArrayOp}
    (admits : c.admits op = true) : (c.outstanding ++ [op]).Pairwise ArrayOp.Apart :=
  List.pairwise_append.2 ⟨h, List.pairwise_singleton _ _, fun a ha b hb => by
    rw [List.mem_singleton.1 hb]
    exact Controller.admits_iff.1 admits a ha⟩

/-- A request reaches the controller: nothing is outstanding but it and what was. -/
theorem arrive_outstanding (op : ArrayOp) (s : State) :
    (arrive op s).ctrl.outstanding.Subperm (s.ctrl.outstanding ++ [op]) := by
  refine List.subperm_ext_iff.2 fun o _ => ?_
  unfold arrive pauseErase Controller.start Controller.outstanding
  dsimp only
  cases cur : s.ctrl.cur with
  | none => simp only [List.count_append, List.count_nil, Option.toList_none, Option.toList_some]; omega
  | some running =>
    split
    · contradiction
    · rename_i v erasing
      cases erasing
      split
      · split <;> rename_i queue <;>
          simp only [queue, List.count_append, List.count_cons, List.count_nil, Option.toList_some,
            Option.map_some] <;> omega
      · simp only [List.count_append]; omega
    · simp only [List.count_append]; omega

/-- What waits or is held back after a request is what was, and the request. -/
theorem mem_arrive {op o : ArrayOp} {s : State}
    (h : o ∈ (arrive op s).ctrl.queue ++ (arrive op s).ctrl.held) :
    o = op ∨ o ∈ s.ctrl.queue ++ s.ctrl.held := by
  unfold arrive pauseErase Controller.start at h
  dsimp only at h
  split at h
  · exact .inr h
  · split at h
    · split at h <;> rename_i queue <;> simp only [queue] at h ⊢ <;> grind
    · grind
  · grind

theorem ControllerInv.ask {s : State} (h : ControllerInv s.ctrl) {op : ArrayOp}
    (inner : op.ofMount = false) : ControllerInv (ask op s).ctrl := by
  unfold Machine.ask
  split
  · rename_i admits
    exact ⟨apart_of_subperm (apart_append h.apart admits) (arrive_outstanding op s),
      fun o mem => (mem_arrive mem).elim (fun same => same ▸ inner) (h.mount o)⟩
  · refine ⟨h.apart, fun o mem => ?_⟩
    rcases List.mem_append.1 mem with mem | mem
    · exact h.mount o (List.mem_append_left _ mem)
    · rcases List.mem_append.1 mem with mem | mem
      · exact h.mount o (List.mem_append_right _ mem)
      · exact List.mem_singleton.1 mem ▸ inner

/-- A request held back that may arrive now joins those that wait (R58). -/
theorem ControllerInv.release {c : Controller} (h : ControllerInv c) : ControllerInv c.release := by
  unfold Controller.release
  split
  · rename_i op found
    have held := List.mem_of_find?_eq_some found
    have admits : c.admits op = true := List.find?_some found
    refine ⟨apart_of_subperm (apart_append h.apart admits) ?_, fun o mem => ?_⟩
    · refine List.Perm.subperm (List.perm_iff_count.2 fun o => ?_)
      simp only [Controller.outstanding, List.count_append]
      omega
    · refine h.mount o ?_
      have kept (mem : o ∈ c.held.erase op) : o ∈ c.held := List.mem_of_mem_erase mem
      grind
  · exact h

/-- The controller goes on: nothing more is outstanding, and nothing more waits (R58, R82). -/
theorem ControllerInv.resume {c : Controller} (h : ControllerInv c) (idle : c.cur = none) (s : State) :
    ControllerInv (resume c s).ctrl := by
  unfold Machine.resume
  cases queue : c.queue with
  | cons op rest =>
    dsimp only
    refine ⟨apart_of_subperm h.apart (List.Perm.subperm (List.perm_iff_count.2 fun o => ?_)),
      fun o mem => h.mount o ?_⟩
    · simp only [Controller.start, Controller.outstanding, idle, queue, List.count_append,
        List.count_cons, List.count_nil, Option.toList_some, Option.toList_none]
      omega
    · simp only [Controller.start] at mem
      grind
  | nil =>
    dsimp only
    split
    · rename_i v paused
      refine ⟨apart_of_subperm h.apart (List.Perm.subperm (List.perm_iff_count.2 fun o => ?_)),
        fun o mem => h.mount o (by simpa [queue] using mem)⟩
      simp only [Controller.outstanding, idle, queue, paused, List.count_append, List.count_cons,
        List.count_nil, Option.toList_some, Option.toList_none, Option.map_some, Option.map_none]
      omega
    · exact h

theorem Controller.release_cur (c : Controller) : c.release.cur = c.cur := by
  unfold Controller.release
  split <;> rfl

theorem ControllerInv.completeOp {s : State} (h : ControllerInv s.ctrl) :
    ControllerInv (completeOp s).ctrl := by
  have ended : ControllerInv { s.ctrl with cur := none } :=
    ⟨h.apart.sublist ((List.sublist_append_right _ _).append_right _), h.mount⟩
  exact ended.release.resume (Controller.release_cur _) s

@[simp] theorem ArrayOp.unwanted_requester (op : ArrayOp) : op.unwanted.requester = op.requester := by
  cases op <;> rfl

@[simp] theorem ArrayOp.unwanted_pairs (a b : ArrayOp) : a.unwanted.pairs b.unwanted = a.pairs b := by
  cases a <;> cases b <;> rfl

/-- Reads not wanted any more are outstanding all the same; those held back go (R42). -/
theorem ControllerInv.dropGetReads {s : State} (h : ControllerInv s.ctrl) :
    ControllerInv (dropGetReads s).ctrl := by
  have mapped : (Machine.dropGetReads s).ctrl.outstanding =
      s.ctrl.outstanding.map ArrayOp.unwanted := by
    simp only [Machine.dropGetReads, Controller.outstanding, List.map_append]
    cases s.ctrl.cur <;> cases s.ctrl.paused <;> rfl
  refine ⟨?_, fun o mem => ?_⟩
  · rw [mapped, List.pairwise_map]
    exact h.apart.imp fun apart => by simpa using apart
  · rcases List.mem_append.1 mem with mem | mem
    · obtain ⟨o', waits, rfl⟩ := List.mem_map.1 mem
      simpa [ArrayOp.ofMount] using h.mount o' (List.mem_append_left _ waits)
    · exact h.mount o (List.mem_append_right _ (List.mem_of_mem_filter mem))

theorem Acts.controllerInv {s t : State} (h : Acts s t) (inv : ControllerInv s.ctrl) :
    ControllerInv t.ctrl := by
  induction h with
  | trans _ _ ih₁ ih₂ => exact ih₂ (ih₁ inv)
  | ask s op inner => exact inv.ask inner
  | completeOp s => exact inv.completeOp
  | dropGetReads s => exact inv.dropGetReads
  | raise s n =>
    obtain ⟨_, _, _, same⟩ := raise_frame n s
    rw [same]
    exact inv
  | changeHead s v stamp =>
    unfold Machine.changeHead
    dsimp only
    split <;> exact inv
  | refl | blocks | modSeg | occupy | enqueue | dirDrop => exact inv

theorem Counts.controllerInv {s t : State} (h : Counts s t) (inv : ControllerInv s.ctrl) :
    ControllerInv t.ctrl := by
  induction h with
  | acts h => exact h.controllerInv inv
  | trans _ _ ih₁ ih₂ => exact ih₂ (ih₁ inv)
  | addLive | dirPut | settingsPut => exact inv

/-- Mount's requests stand alone beside those of the blocks (R58). -/
theorem ControllerInv.mountAsk {s : State} (h : ControllerInv s.ctrl) (m : Mount)
    {op : Option ArrayOp} (inner : ∀ o, op = some o → o.ofMount = true) :
    ControllerInv (mountAsk m op s).ctrl := by
  have others : ∀ o ∈ s.ctrl.queue ++ (s.ctrl.paused.map ArrayOp.erase).toList, o.ofMount = false := by
    intro o mem
    rcases List.mem_append.1 mem with mem | mem
    · exact h.mount o (List.mem_append_left _ mem)
    · rw [Option.mem_toList] at mem
      obtain ⟨v, -, rfl⟩ := Option.map_eq_some_iff.1 mem
      rfl
  refine ⟨?_, h.mount⟩
  have waiting : (s.ctrl.queue ++ (s.ctrl.paused.map ArrayOp.erase).toList).Pairwise ArrayOp.Apart := by
    refine h.apart.sublist ?_
    rw [Controller.outstanding, List.append_assoc]
    exact List.sublist_append_right _ _
  change (op.toList ++ s.ctrl.queue ++ _).Pairwise ArrayOp.Apart
  rw [List.append_assoc]
  refine List.pairwise_append.2 ⟨?_, waiting, fun a ha b hb => .inl fun same => ?_⟩
  · cases op with
    | none => exact List.Pairwise.nil
    | some o => exact List.pairwise_singleton _ o
  · have ofMount := inner a (by simpa using ha)
    have other := others b hb
    unfold ArrayOp.ofMount at ofMount other
    rw [← same, ofMount] at other
    cases other

theorem Works.controllerInv {may : Change → Prop} {s t : State} (h : Works may s t)
    (inv : ControllerInv s.ctrl) : ControllerInv t.ctrl := by
  induction h with
  | trans _ _ ih₁ ih₂ => exact ih₂ (ih₁ inv)
  | acts _ h => exact h.controllerInv inv
  | @freed s _ rest =>
    obtain ⟨_, _, _, same⟩ := moveNotices_frame s.notices { s with replies := rest }
    rw [drainNotices, same]
    exact inv
  | ended s => exact inv.completeOp
  | mount s m op inner => exact inv.mountAsk m inner
  | refl | link | lines | context | guards | reserve | array => exact inv

theorem AfterReset.controllerInv {s t : State} (h : AfterReset s t) : ControllerInv t.ctrl where
  apart := by
    rw [Controller.outstanding, h.inv.queue, h.inv.unpaused]
    cases t.ctrl.cur with
    | none => exact List.Pairwise.nil
    | some o => exact List.pairwise_singleton _ o
  mount := by
    rw [h.inv.queue, h.inv.held]
    nofun

theorem exec_controllerInv {c : Instr} {s t : State} (next : exec c s = .next t)
    (inv : ControllerInv s.ctrl) : ControllerInv t.ctrl := by
  rcases exec_does next with (works | ⟨-, -, resets⟩) | ⟨claims, acts, -⟩
  · exact works.controllerInv inv
  · exact resets.afterReset.controllerInv
  · refine acts.controllerInv ?_
    rcases claims.cases with ⟨loc, r, -, counts⟩ | ⟨m, -, -, rfl⟩
    · exact counts.controllerInv inv
    · exact inv

/-- Only the log manager has two requests that pair (R58). -/
theorem ArrayOp.requester_of_pairs {a b : ArrayOp} (h : a.pairs b = true) :
    a.requester = .logManager := by
  unfold ArrayOp.pairs at h
  split at h
  · rfl
  · rfl
  · cases h

/-- Of three requests two do not pair. -/
theorem ArrayOp.not_pairs {a b c : ArrayOp} (ab : a.pairs b = true) (ac : a.pairs c = true)
    (bc : b.pairs c = true) : False := by
  cases a <;> cases b <;> simp [ArrayOp.pairs] at ab <;> cases c <;> simp [ArrayOp.pairs] at ac bc

/-- The requests of one block among some that are apart. -/
def requestsOf (q : Requester) (l : List ArrayOp) : List ArrayOp :=
  l.filter fun op => decide (op.requester = q)

/-- The requests of one block that are apart pair with each other. -/
theorem requestsOf_pairs {l : List ArrayOp} (h : l.Pairwise ArrayOp.Apart) (q : Requester) :
    (requestsOf q l).Pairwise fun a b => a.pairs b = true := by
  refine (h.sublist List.filter_sublist).imp_of_mem fun {a b} ha hb apart => ?_
  have ofA : a.requester = q := by simpa using (List.mem_filter.1 ha).2
  have ofB : b.requester = q := by simpa using (List.mem_filter.1 hb).2
  exact apart.resolve_left fun differ => differ (ofA.trans ofB.symm)

theorem requestsOf_length_le_two {l : List ArrayOp} (h : l.Pairwise ArrayOp.Apart) (q : Requester) :
    (requestsOf q l).length ≤ 2 := by
  have pairs := requestsOf_pairs h q
  match requestsOf q l, pairs with
  | [], _ | [_], _ | [_, _], _ => simp
  | a :: b :: c :: rest, pairs =>
    simp only [List.pairwise_cons, List.mem_cons, forall_eq_or_imp] at pairs
    obtain ⟨⟨ab, ac, -⟩, ⟨bc, -⟩, -⟩ := pairs
    exact (ArrayOp.not_pairs ab ac bc).elim

theorem requestsOf_length_le_one {l : List ArrayOp} (h : l.Pairwise ArrayOp.Apart) {q : Requester}
    (other : q ≠ .logManager) : (requestsOf q l).length ≤ 1 := by
  have pairs := requestsOf_pairs h q
  have own : ∀ a ∈ requestsOf q l, a.requester = q := fun a mem => by
    simpa using (List.mem_filter.1 mem).2
  match requestsOf q l, pairs, own with
  | [], _, _ | [_], _, _ => simp
  | a :: b :: rest, pairs, own =>
    have pair : a.pairs b = true := (List.pairwise_cons.1 pairs).1 b List.mem_cons_self
    exact absurd ((own a List.mem_cons_self).symm.trans (ArrayOp.requester_of_pairs pair)) other

/-- Requests outside mount are those of the log manager, the engine and the reclaim unit. -/
theorem length_eq_requestsOf {l : List ArrayOp} (inner : ∀ op ∈ l, op.ofMount = false) :
    l.length = (requestsOf .logManager l).length + (requestsOf .engine l).length +
      (requestsOf .reclaim l).length := by
  induction l with
  | nil => rfl
  | cons op rest ih =>
    have ih := ih fun o mem => inner o (List.mem_cons_of_mem _ mem)
    have own := inner op List.mem_cons_self
    unfold ArrayOp.ofMount at own
    unfold requestsOf at *
    cases requester : op.requester <;> simp_all <;> omega

/-- Of requests that are apart and not mount's there are four at most: two of the log manager, and one
each of the engine and the reclaim unit (R58). -/
theorem outstanding_length {l : List ArrayOp} (h : l.Pairwise ArrayOp.Apart)
    (inner : ∀ op ∈ l, op.ofMount = false) : l.length ≤ 4 := by
  have log := requestsOf_length_le_two h .logManager
  have engine := requestsOf_length_le_one h (q := .engine) nofun
  have reclaim := requestsOf_length_le_one h (q := .reclaim) nofun
  have all := length_eq_requestsOf inner
  omega

/-- Beside a request in progress, those that wait and a paused erase are three at most (R58). -/
theorem ControllerInv.waiting_length {c : Controller} {op : ArrayOp} (h : ControllerInv c)
    (cur : c.cur = some op) (inner : op.ofMount = false) :
    (c.queue ++ c.paused.toList.map ArrayOp.erase).length ≤ 3 := by
  have split : c.outstanding = op :: (c.queue ++ c.paused.toList.map ArrayOp.erase) := by
    rw [Controller.outstanding, cur]
    cases c.paused <;> rfl
  have within := outstanding_length h.apart fun o mem => ?_
  · rw [split, List.length_cons] at within
    omega
  · rw [split] at mem
    rcases List.mem_cons.1 mem with rfl | mem
    · exact inner
    · rcases List.mem_append.1 mem with mem | mem
      · exact h.mount o (List.mem_append_left _ mem)
      · obtain ⟨v, -, rfl⟩ := List.mem_map.1 mem
        rfl

/-- Settles O4. -/
theorem everyStepKeepsTheQueues : Obligations.EveryStepKeepsTheQueues := by
  refine ⟨fun s t inv next => ?_, fun s t inv next => ?_, fun c op inv cur inner =>
    inv.waiting_length cur inner⟩
  · exact of_step next inv (fun _ h => ⟨h.inbound, h.replies, h.numbers, h.notices⟩)
      fun _ _ _ next inv => exec_queueInv next inv
  · exact of_step (P := fun s => ControllerInv s.ctrl) next inv (fun _ h => h)
      fun _ _ _ next inv => exec_controllerInv next inv

end Sys2Proof.Machine
end

section
/-!
PROOFS. Every step keeps the directory in order (R2, R5), and within 1,024 slots where a record in program
has its slot (R7, R8): O5.
-/

namespace Sys2Proof.Machine

open Sys2Proof

/-! ## The order -/

theorem Moves.dirInv {s t : State} (h : Moves s t) (inv : DirInv s) : DirInv t := by
  induction h with
  | trans _ _ ih₁ ih₂ => exact ih₂ (ih₁ inv)
  | ask s op =>
    obtain ⟨_, _, same⟩ := ask_frame op s
    rw [same]
    exact ⟨inv.dir, inv.mounting⟩
  | completeOp s =>
    obtain ⟨_, _, same⟩ := completeOp_frame s
    rw [same]
    exact ⟨inv.dir, inv.mounting⟩
  | raise s n =>
    obtain ⟨_, _, _, same⟩ := raise_frame n s
    rw [same]
    exact ⟨inv.dir, inv.mounting⟩
  | dirPut s e => exact ⟨ordered_dirPut inv.dir e, inv.mounting⟩
  | dirDrop s p => exact ⟨ordered_filter inv.dir p, inv.mounting⟩
  | refl | blocks | dropGetReads | enqueue | settingsPut => exact ⟨inv.dir, inv.mounting⟩

theorem Works.dirInv {may : Change → Prop} {s t : State} (h : Works may s t) (inv : DirInv s) :
    DirInv t := by
  induction h with
  | trans _ _ ih₁ ih₂ => exact ih₂ (ih₁ inv)
  | acts _ h => exact h.moves.dirInv inv
  | @freed s _ rest =>
    obtain ⟨_, _, _, same⟩ := moveNotices_frame s.notices { s with replies := rest }
    rw [drainNotices, same]
    exact ⟨inv.dir, inv.mounting⟩
  | ended s => exact (Moves.completeOp s).dirInv inv
  | mount s m op _ order =>
    exact ⟨inv.dir, fun m' mount => by
      cases mount
      exact order inv⟩
  | refl | link | lines | context | guards | reserve | array => exact ⟨inv.dir, inv.mounting⟩

theorem AfterReset.dirInv {s t : State} (h : AfterReset s t) : DirInv t where
  dir := by
    rw [h.inv.dir]
    exact List.Pairwise.nil
  mounting := fun m mount => by
    rcases h.working with ⟨-, none_⟩ | ⟨-, start⟩
    · rw [none_] at mount
      cases mount
    · rw [start] at mount
      cases mount
      exact List.Pairwise.nil

theorem Claims.dirInv {s u : State} (h : Claims s u) (inv : DirInv s) : DirInv u := by
  rcases h.cases with ⟨loc, r, -, counts⟩ | ⟨m, mount, -, rfl⟩
  · exact counts.moves.dirInv ⟨inv.dir, inv.mounting⟩
  · exact ⟨inv.mounting m mount, nofun⟩

theorem exec_dirInv {c : Instr} {s t : State} (next : exec c s = .next t) (inv : DirInv s) :
    DirInv t := by
  rcases exec_does next with (works | ⟨-, -, resets⟩) | ⟨claims, acts, -⟩
  · exact works.dirInv inv
  · exact resets.afterReset.dirInv
  · exact acts.moves.dirInv (claims.dirInv inv)

/-! ## The slots -/

/-- The slots taken, by entries and reservations (R7). -/
def slotsTaken (s : State) : Nat := s.dir.length + s.group.reserved.length

/-- The blocks inside the part take no slot but by a claim. -/
theorem Acts.slotsTaken_le {s t : State} (h : Acts s t) : slotsTaken t ≤ slotsTaken s := by
  unfold slotsTaken
  induction h with
  | trans _ _ ih₁ ih₂ => exact Nat.le_trans ih₂ ih₁
  | blocks s e g l r _ _ _ _ _ reserved => exact Nat.add_le_add_left reserved _
  | changeHead s v stamp =>
    unfold Machine.changeHead
    dsimp only
    split <;> exact Nat.le_refl _
  | ask s op =>
    obtain ⟨_, _, same⟩ := ask_frame op s
    rw [same]
  | completeOp s =>
    obtain ⟨_, _, same⟩ := completeOp_frame s
    rw [same]
  | raise s n =>
    obtain ⟨_, _, _, same⟩ := raise_frame n s
    rw [same]
  | dirDrop s p => exact Nat.add_le_add_right (List.length_filter_le _ _) _
  | refl | modSeg | occupy | dropGetReads | enqueue => exact Nat.le_refl _

theorem Works.slotsTaken_le {may : Change → Prop} {s t : State} (h : Works may s t)
    (within : slotsTaken s ≤ 1024) : slotsTaken t ≤ 1024 := by
  induction h with
  | trans _ _ ih₁ ih₂ => exact ih₂ (ih₁ within)
  | acts _ h => exact Nat.le_trans h.slotsTaken_le within
  | @freed s _ rest =>
    obtain ⟨_, _, _, same⟩ := moveNotices_frame s.notices { s with replies := rest }
    rw [drainNotices, same]
    exact within
  | ended s => exact Nat.le_trans (Acts.completeOp s).slotsTaken_le within
  | reserve s ns key _ room =>
    unfold slotsTaken takeReservation
    dsimp only
    rw [List.length_append, List.length_singleton]
    omega
  | refl | link | lines | context | guards | array | mount => exact within

/-- A state with the directory and the group unit of another. -/
def SameNames (s t : State) : Prop := t.dir = s.dir ∧ t.group = s.group

theorem SameNames.slotsTaken {s t : State} (h : SameNames s t) : slotsTaken t = slotsTaken s := by
  unfold Machine.slotsTaken
  rw [h.1, h.2]

theorem sameNames_dropPrevious (ns : Nat) (key : Bytes) (s : State) :
    SameNames s (dropPrevious ns key s) := by
  unfold dropPrevious
  split
  · split <;> exact ⟨rfl, rfl⟩
  · exact ⟨rfl, rfl⟩

theorem putCompletion_names (ns : Nat) (key : Bytes) (sn length : Nat) (loc : Loc) (counted : Bool)
    (s : State) :
    (putCompletion ns key sn length loc counted s).dir = dirPut s.dir
        { ns := ns, key := key, state := .live length, version := sn, loc := loc } ∧
      (putCompletion ns key sn length loc counted s).group = s.group := by
  obtain ⟨dir, group⟩ := sameNames_dropPrevious ns key s
  unfold putCompletion
  dsimp only
  cases counted <;> exact ⟨congrArg (dirPut · _) dir, group⟩

theorem deleteCompletion_names (ns : Nat) (key : Bytes) (sn : Nat) (loc : Loc) (counted : Bool)
    (s : State) :
    (deleteCompletion ns key sn loc counted s).dir = dirPut s.dir
        { ns := ns, key := key, state := .buried, version := sn, loc := loc } ∧
      (deleteCompletion ns key sn loc counted s).group = s.group := by
  obtain ⟨dir, group⟩ := sameNames_dropPrevious ns key s
  unfold deleteCompletion
  dsimp only
  cases counted <;> exact ⟨congrArg (dirPut · _) dir, group⟩

/-- An entry of a name the directory has takes no slot. -/
theorem length_dirPut_of_lookup {dir : List Entry} (h : ordered dir) {e : Entry}
    (present : (lookup dir e.ns e.key).isSome = true) : (dirPut dir e).length ≤ dir.length := by
  rw [← List.length_map (as := dir) Entry.name]
  refine length_le_of_names (ordered_dirPut h e) fun y mem => ?_
  rcases mem_dirPut mem with rfl | mem
  · exact name_mem_of_lookup present
  · exact List.mem_map_of_mem mem

/-- An entry put takes a slot at most where its name has none. -/
theorem slots_dirPut {s t : State} {e : Entry} (h : ordered s.dir) (dir : t.dir = dirPut s.dir e)
    (group : t.group = s.group) (within : slotsTaken s ≤ 1024)
    (free : lookup s.dir e.ns e.key = none → slotsTaken s < 1024) : slotsTaken t ≤ 1024 := by
  unfold slotsTaken at *
  rw [dir, group]
  cases present : lookup s.dir e.ns e.key with
  | none =>
    have := length_dirPut_le s.dir e
    have := free present
    omega
  | some x =>
    have := length_dirPut_of_lookup h (e := e) (by rw [present]; rfl)
    omega

/-- The directory after the pending operations has no names but its own and theirs (R14). -/
theorem applyPending_names (list : List Pending) {s : State} (h : ordered s.dir) :
    ordered (applyPending list s).dir ∧ ∀ e ∈ (applyPending list s).dir,
      e.name ∈ s.dir.map Entry.name ∨ ∃ p ∈ list, (p.ns, p.key) = e.name := by
  induction list generalizing s with
  | nil => exact ⟨h, fun e mem => .inl (List.mem_map_of_mem mem)⟩
  | cons p rest ih =>
    have put (x : Entry) (t : State) (name : x.name = (p.ns, p.key)) (dir : t.dir = dirPut s.dir x) :
        ordered (applyPending rest t).dir ∧ ∀ e ∈ (applyPending rest t).dir,
          e.name ∈ s.dir.map Entry.name ∨ ∃ q ∈ p :: rest, (q.ns, q.key) = e.name := by
      obtain ⟨order, names⟩ := ih (s := t) (by rw [dir]; exact ordered_dirPut h x)
      refine ⟨order, fun e mem => ?_⟩
      rcases names e mem with known | ⟨q, hq, same⟩
      · rw [dir] at known
        obtain ⟨y, hy, same⟩ := List.mem_map.1 known
        rcases mem_dirPut hy with rfl | hy
        · exact .inr ⟨p, List.mem_cons_self, by rw [← same, name]⟩
        · exact .inl (same ▸ List.mem_map_of_mem hy)
      · exact .inr ⟨q, List.mem_cons_of_mem _ hq, same⟩
    unfold applyPending
    dsimp only
    split
    · exact put _ _ rfl (putCompletion_names _ _ _ _ _ _ s).1
    · exact put _ _ rfl (deleteCompletion_names _ _ _ _ _ s).1

/-- A commit takes the slots its group has reserved, at most (R14, R100). -/
theorem slots_commitApplication {s : State} (h : ordered s.dir)
    (held : ∀ p ∈ s.group.list, (lookup s.dir p.ns p.key).isSome = true ∨
      (p.ns, p.key) ∈ s.group.reserved) :
    slotsTaken (commitApplication s) ≤ slotsTaken s := by
  obtain ⟨order, names⟩ := applyPending_names s.group.list h
  have length := length_le_of_names order (names := s.dir.map Entry.name ++ s.group.reserved)
    fun e mem => by
      rcases names e mem with known | ⟨p, hp, same⟩
      · exact List.mem_append_left _ known
      · rcases held p hp with present | reserved
        · exact List.mem_append_left _ (same ▸ name_mem_of_lookup present)
        · exact List.mem_append_right _ (same ▸ reserved)
  rw [List.length_append, List.length_map] at length
  exact length

theorem sameNames_stage (p : Pending) (s : State) :
    slotsTaken (stage p s) = slotsTaken s := by
  unfold stage
  dsimp only
  split <;> rfl

theorem sameNames_settingsWrite (t : Setting) (s : State) : SameNames s (settingsWrite t s) := by
  unfold settingsWrite
  dsimp only
  split <;> exact ⟨rfl, rfl⟩

/-- The claim of the engine's record takes no slot but the one held for it (R8, R14). -/
theorem slots_engineClaim {s : State} {j : Job} {r : Record} (loc : Loc) (h : ordered s.dir)
    (within : slotsTaken s ≤ 1024)
    (single : (j.purpose = .delete ∨ ∃ b, j.purpose = .put b) → r.tagged = false →
      lookup s.dir r.ns r.key = none → slotsTaken s < 1024)
    (commit : j.purpose = .commit → ∀ p ∈ s.group.list,
      (lookup s.dir p.ns p.key).isSome = true ∨ (p.ns, p.key) ∈ s.group.reserved) :
    slotsTaken (engineClaim j r loc s) ≤ 1024 := by
  unfold engineClaim
  split
  · rename_i b purpose
    split
    · rwa [sameNames_stage]
    · rename_i untagged
      obtain ⟨dir, group⟩ := putCompletion_names r.ns r.key r.sn r.value.length loc false s
      exact slots_dirPut h dir group within
        (single (.inr ⟨b, purpose⟩) (Bool.eq_false_iff.2 untagged))
  · rename_i purpose
    split
    · rwa [sameNames_stage]
    · rename_i untagged
      obtain ⟨dir, group⟩ := deleteCompletion_names r.ns r.key r.sn loc false s
      exact slots_dirPut h dir group within (single (.inl purpose) (Bool.eq_false_iff.2 untagged))
  · rename_i purpose
    split
    · exact within
    · exact Nat.le_trans (slots_commitApplication h (commit purpose)) within
  · rwa [(sameNames_settingsWrite _ s).slotsTaken]
  · exact Nat.le_trans (acts_formatClearing s).slotsTaken_le within
  · rwa [(sameNames_settingsWrite _ s).slotsTaken]

/-- A relocation takes no slot (R15, R77). -/
theorem slots_relocate {s : State} (c : Copy) (dest : Loc) (h : ordered s.dir) :
    slotsTaken (relocate c dest s) ≤ slotsTaken s := by
  unfold relocate
  split
  · unfold dirRelocation
    split
    · rename_i e found
      split
      · have same : e.ns = c.ns ∧ e.key = c.key := by
          unfold lookup at found
          simpa using List.find?_some found
        refine Nat.add_le_add_right (length_dirPut_of_lookup (e := { e with loc := dest }) h ?_) _
        rw [same.1, same.2, found]
        rfl
      · exact Nat.le_refl _
    · exact Nat.le_refl _
  · unfold groupRelocation
    split <;> exact Nat.le_refl _
  · unfold settingsRelocation
    split <;> exact Nat.le_refl _

@[simp] theorem completeOp_dir (s : State) : (completeOp s).dir = s.dir := by
  obtain ⟨_, _, h⟩ := completeOp_frame s
  rw [h]

@[simp] theorem completeOp_group (s : State) : (completeOp s).group = s.group := by
  obtain ⟨_, _, h⟩ := completeOp_frame s
  rw [h]

theorem Claims.slotsTaken_le {s u : State} (h : Claims s u) (inv : DirInv s)
    (within : slotsTaken s ≤ 1024) (held : SlotsHeld s)
    (mounting : ∀ m, s.mount = some m → m.dir.length + s.group.reserved.length ≤ 1024) :
    slotsTaken u ≤ 1024 := by
  have order (loc : Loc) (r : Record) : ordered (completeOp (writeSlot loc r true s)).dir := by
    rw [completeOp_dir]
    exact inv.dir
  have same (loc : Loc) (r : Record) :
      slotsTaken (completeOp (writeSlot loc r true s)) = slotsTaken s :=
    SameNames.slotsTaken ⟨completeOp_dir _, completeOp_group _⟩
  cases h with
  | @engine loc r g j cur grant claimant job =>
    refine slots_engineClaim loc (order loc r) (by rwa [same]) ?_ ?_
    · rw [same, completeOp_dir]
      exact fun purpose => held.single loc r g j cur grant job purpose
    · rw [completeOp_dir, completeOp_group]
      exact held.commit loc r g j cur grant job
  | @copy loc r g c =>
    exact Nat.le_trans (slots_relocate c loc (order loc r)) (by rwa [same])
  | @install m mount => exact mounting m mount

theorem exec_slotsTaken_le {c : Instr} {s t : State} (next : exec c s = .next t) (inv : DirInv s)
    (within : slotsTaken s ≤ 1024) (held : SlotsHeld s)
    (mounting : ∀ m, s.mount = some m → m.dir.length + s.group.reserved.length ≤ 1024) :
    slotsTaken t ≤ 1024 := by
  rcases exec_does next with (works | ⟨-, -, resets⟩) | ⟨claims, acts, -⟩
  · exact works.slotsTaken_le within
  · have after := resets.afterReset.inv
    unfold slotsTaken
    rw [after.dir, after.group]
    exact Nat.zero_le _
  · exact Nat.le_trans acts.slotsTaken_le (claims.slotsTaken_le inv within held mounting)

/-- Settles O5. -/
theorem everyStepKeepsTheDirectoryOrdered : Obligations.EveryStepKeepsTheDirectoryOrdered := by
  refine ⟨fun s t inv next => ?_, fun s t inv within held mounting next => ?_, length_rebuild_dir⟩
  · exact of_step next inv (fun _ h => ⟨h.dir, h.mounting⟩) fun _ _ _ next inv => exec_dirInv next inv
  · unfold step at next
    split at next
    · cases next
      exact within
    · exact exec_slotsTaken_le next ⟨inv.dir, inv.mounting⟩ within
        ⟨held.single, held.commit⟩ mounting

end Sys2Proof.Machine
end

section
/-!
PROOFS. Every step keeps the counters within their ranges (R82, R142, R153), the segment table within its
bounds and the bytes live within those used (R43, R45, R47): O6.
-/

namespace Sys2Proof.Machine

open Sys2Proof

/-! ## The counters and the context -/

theorem start_pauseCount {c : Controller} (h : c.pauseCount ≤ 16) (op : ArrayOp)
    (rest : List ArrayOp) : (c.start op rest).pauseCount ≤ 16 := by
  unfold Controller.start
  dsimp only
  split
  · exact Nat.zero_le _
  · exact h

/-- An erase is paused 16 times at most (R82). -/
theorem ask_pauseCount {s : State} (h : s.ctrl.pauseCount ≤ 16) (op : ArrayOp) :
    (ask op s).ctrl.pauseCount ≤ 16 := by
  unfold ask arrive pauseErase
  dsimp only
  split
  · split
    · exact start_pauseCount h op _
    · split
      · rename_i few
        split <;> exact few
      · exact h
    · exact h
  · exact h

theorem completeOp_pauseCount {s : State} (h : s.ctrl.pauseCount ≤ 16) :
    (completeOp s).ctrl.pauseCount ≤ 16 := by
  have released (c : Controller) : c.release.pauseCount = c.pauseCount := by
    unfold Controller.release
    split <;> rfl
  have within : ({ s.ctrl with cur := none } : Controller).release.pauseCount ≤ 16 := by
    rw [released]
    exact h
  unfold completeOp resume
  split
  · exact start_pauseCount within _ _
  · split <;> exact within

theorem Moves.pauseCount {s t : State} (h : Moves s t) (within : s.ctrl.pauseCount ≤ 16) :
    t.ctrl.pauseCount ≤ 16 := by
  induction h with
  | trans _ _ ih₁ ih₂ => exact ih₂ (ih₁ within)
  | ask s op => exact ask_pauseCount within op
  | completeOp s => exact completeOp_pauseCount within
  | raise s n =>
    obtain ⟨_, _, _, same⟩ := raise_frame n s
    rw [same]
    exact within
  | refl | blocks | dropGetReads | enqueue | dirPut | dirDrop | settingsPut => exact within

theorem Moves.rangeInv {s t : State} (h : Moves s t) (inv : RangeInv s) : RangeInv t := by
  have outside := h.sameOutside
  refine ⟨?_, ?_, ?_, h.pauseCount inv.pauses⟩
  · rw [outside.unlockFails]
    exact inv.fails
  · rw [outside.ns]
    exact inv.ns
  · rw [outside.watermark]
    exact inv.watermark

theorem Works.rangeInv {may : Change → Prop} {s t : State} (h : Works may s t) (inv : RangeInv s) :
    RangeInv t := by
  induction h with
  | trans _ _ ih₁ ih₂ => exact ih₂ (ih₁ inv)
  | acts _ h => exact h.moves.rangeInv inv
  | @freed s _ rest =>
    obtain ⟨_, _, _, same⟩ := moveNotices_frame s.notices { s with replies := rest }
    rw [drainNotices, same]
    exact ⟨inv.fails, inv.ns, inv.watermark, inv.pauses⟩
  | context s ns mode mark _ _ ns_le mark_le => exact ⟨inv.fails, ns_le, mark_le, inv.pauses⟩
  | guards s locks downs gate fails _ _ fails_le =>
    exact ⟨fails_le inv.fails, inv.ns, inv.watermark, inv.pauses⟩
  | ended s => exact (Moves.completeOp s).rangeInv inv
  | refl | link | lines | reserve | array | mount =>
    exact ⟨inv.fails, inv.ns, inv.watermark, inv.pauses⟩

theorem AfterReset.rangeInv {s t : State} (h : AfterReset s t) (inv : RangeInv s) : RangeInv t where
  fails := by
    have := inv.fails
    rcases h.fails with none_ | kept <;> omega
  ns := by
    rw [h.inv.engine]
    exact Nat.zero_le _
  watermark := by
    rw [h.inv.engine]
    exact Nat.zero_le _
  pauses := by
    rw [h.pauses]
    exact Nat.zero_le _

theorem exec_rangeInv {c : Instr} {s t : State} (next : exec c s = .next t) (inv : RangeInv s) :
    RangeInv t := by
  rcases exec_does next with (works | ⟨works, -, resets⟩) | ⟨claims, acts, -⟩
  · exact works.rangeInv inv
  · exact resets.afterReset.rangeInv (works.rangeInv inv)
  · refine acts.moves.rangeInv ?_
    rcases claims.cases with ⟨loc, r, -, counts⟩ | ⟨m, -, -, rfl⟩
    · exact counts.moves.rangeInv ⟨inv.fails, inv.ns, inv.watermark, inv.pauses⟩
    · exact ⟨inv.fails, inv.ns, inv.watermark, inv.pauses⟩

/-! ## The operations at the controller -/

/-- A record to program is within bounds. -/
def ArrayOp.Small (op : ArrayOp) : Prop := ∀ loc r, op = .programRecord loc r → r.small

/-- The operations at the controller program records within bounds; none of mount waits, and one of mount
in progress fits the table mount rebuilds. -/
structure OpsInv (c : Controller) (mount : Option Mount) : Prop where
  waiting : ∀ op ∈ c.queue ++ c.held, op.Small ∧ op.ofMount = false
  running : ∀ op, c.cur = some op → op.Small ∧
    (op.ofMount = true → ∀ m, mount = some m → MountTableInv m (some op))
  idle : ∀ m, mount = some m → MountTableInv m none

theorem SegInv.ops {s : State} (h : SegInv s) : OpsInv s.ctrl s.mount where
  waiting := fun op mem => ⟨fun loc r same => h.programs loc r (by
      rw [List.append_assoc, ← same]
      exact List.mem_append_right _ mem), h.mountOps op mem⟩
  running := fun op cur => ⟨fun loc r same => h.programs loc r (by simp [cur, same]),
    fun _ m mount => cur ▸ h.mount m mount⟩
  idle := fun m mount => (h.mount m mount).idle

/-- A state of `SegInv` with other operations at the controller. -/
theorem SegInv.withOps {s t : State} (h : SegInv s) (ops : OpsInv t.ctrl s.mount)
    (log : t.log = s.log) (engine : t.engine = s.engine) (copy : t.reclaim.copy = s.reclaim.copy)
    (prot : t.prot = s.prot) (array : t.array = s.array) (mount : t.mount = s.mount) : SegInv t where
  table := by rw [log]; exact h.table
  job := by rw [engine]; exact h.job
  assembly := by rw [engine]; exact h.assembly
  grant := by rw [log]; exact h.grant
  copy := by rw [copy]; exact h.copy
  settings := by rw [prot]; exact h.settings
  array := by rw [array]; exact h.array
  programs := fun loc r mem => by
    rw [List.append_assoc] at mem
    rcases List.mem_append.1 mem with cur | mem
    · exact (ops.running _ (Option.mem_toList.1 cur)).1 loc r rfl
    · exact (ops.waiting _ mem).1 loc r rfl
  mountOps := fun op mem => (ops.waiting op mem).2
  mount := fun m hm => by
    rw [mount] at hm
    cases cur : t.ctrl.cur with
    | none => exact ops.idle m hm
    | some op =>
      by_cases own : op.ofMount = true
      · exact (ops.running op cur).2 own m hm
      · have table := ops.idle m hm
        exact ⟨table.table, table.settings, table.ends, table.walk, fun i stamp same => by
          cases same
          exact absurd rfl own⟩

/-- An operation of a block starts, or a paused erase resumes. -/
theorem OpsInv.start {c c' : Controller} {mount : Option Mount} (h : OpsInv c mount) {op : ArrayOp}
    (small : op.Small) (inner : op.ofMount = false) (cur : c'.cur = some op)
    (waiting : ∀ o ∈ c'.queue ++ c'.held, o ∈ c.queue ++ c.held ∨ (o.Small ∧ o.ofMount = false)) :
    OpsInv c' mount where
  waiting := fun o mem => (waiting o mem).elim (h.waiting o) id
  running := fun o same => by
    rw [cur] at same
    cases same
    exact ⟨small, fun own => by rw [inner] at own; cases own⟩
  idle := h.idle

/-- The operation in progress stays. -/
theorem OpsInv.stay {c c' : Controller} {mount : Option Mount} (h : OpsInv c mount)
    (cur : c'.cur = c.cur ∨ c'.cur = none)
    (waiting : ∀ o ∈ c'.queue ++ c'.held, o ∈ c.queue ++ c.held ∨ (o.Small ∧ o.ofMount = false)) :
    OpsInv c' mount where
  waiting := fun o mem => (waiting o mem).elim (h.waiting o) id
  running := fun o same => by
    rcases cur with kept | none_
    · exact h.running o (kept ▸ same)
    · rw [none_] at same
      cases same
  idle := h.idle

theorem OpsInv.ask {s : State} {mount : Option Mount} (h : OpsInv s.ctrl mount) {op : ArrayOp}
    (small : op.Small) (inner : op.ofMount = false) : OpsInv (ask op s).ctrl mount := by
  have added {o : ArrayOp} (mem : o ∈ s.ctrl.queue ++ [op] ++ s.ctrl.held) :
      o ∈ s.ctrl.queue ++ s.ctrl.held ∨ (o.Small ∧ o.ofMount = false) := by
    simp only [List.mem_append, List.mem_singleton] at mem ⊢
    rcases mem with (mem | rfl) | mem
    · exact .inl (.inl mem)
    · exact .inr ⟨small, inner⟩
    · exact .inl (.inr mem)
  unfold Machine.ask
  split
  · unfold arrive pauseErase
    dsimp only
    split
    · exact h.start small inner rfl fun o mem => .inl mem
    · split
      · split
        · rename_i queue
          exact h.start small inner rfl fun o mem => .inl (List.mem_append_right _ mem)
        · rename_i first rest queue
          have waits : first ∈ s.ctrl.queue ++ s.ctrl.held := by simp [queue]
          refine h.start (h.waiting first waits).1 (h.waiting first waits).2 rfl fun o mem => added ?_
          simp only [queue, List.mem_append, List.mem_cons] at mem ⊢
          tauto
      · exact h.stay (.inl rfl) fun o mem => added mem
    · exact h.stay (.inl rfl) fun o mem => added mem
  · refine h.stay (.inl rfl) fun o mem => added ?_
    simp only [List.mem_append] at mem ⊢
    tauto

theorem OpsInv.completeOp {s : State} {mount : Option Mount} (h : OpsInv s.ctrl mount) :
    OpsInv (completeOp s).ctrl mount := by
  have released : OpsInv ({ s.ctrl with cur := none } : Controller).release mount := by
    unfold Controller.release
    split
    · rename_i op found
      have held : op ∈ s.ctrl.held := List.mem_of_find?_eq_some found
      refine h.stay (.inr rfl) fun o mem => .inl ?_
      have kept (mem : o ∈ s.ctrl.held.erase op) : o ∈ s.ctrl.held := List.mem_of_mem_erase mem
      simp only [List.mem_append, List.mem_singleton] at mem ⊢
      rcases mem with (mem | rfl) | mem
      · exact .inl mem
      · exact .inr held
      · exact .inr (kept mem)
    · exact h.stay (.inr rfl) fun o mem => .inl mem
  unfold Machine.completeOp resume
  split
  · rename_i op rest queue
    have waits := released.waiting op (by rw [queue]; exact List.mem_append_left _ List.mem_cons_self)
    refine released.start waits.1 waits.2 rfl fun o mem => .inl ?_
    rw [queue]
    exact List.mem_cons_of_mem _ mem
  · rename_i queue
    split
    · exact released.start (by nofun) rfl rfl fun o mem => .inl (queue ▸ mem)
    · exact released

theorem ArrayOp.Small.unwanted {op : ArrayOp} (h : op.Small) : op.unwanted.Small := by
  unfold ArrayOp.unwanted
  split
  · nofun
  · nofun
  · exact h

theorem ArrayOp.unwanted_of_ofMount {op : ArrayOp} (own : op.unwanted.ofMount = true) :
    op.unwanted = op := by
  cases op with
  | getFirstRead => cases own
  | chunkRead => cases own
  | _ => rfl

theorem OpsInv.dropGetReads {s : State} {mount : Option Mount} (h : OpsInv s.ctrl mount) :
    OpsInv (dropGetReads s).ctrl mount where
  waiting := fun op mem => by
    rcases List.mem_append.1 mem with mem | mem
    · obtain ⟨o, waits, rfl⟩ := List.mem_map.1 mem
      obtain ⟨small, inner⟩ := h.waiting o (List.mem_append_left _ waits)
      exact ⟨small.unwanted, by simpa [ArrayOp.ofMount] using inner⟩
    · exact h.waiting op (List.mem_append_right _ (List.mem_of_mem_filter mem))
  running := fun op cur => by
    obtain ⟨o, running, rfl⟩ := Option.map_eq_some_iff.1 cur
    obtain ⟨small, own⟩ := h.running o running
    refine ⟨small.unwanted, fun inner m mount => ?_⟩
    have same := ArrayOp.unwanted_of_ofMount inner
    rw [same] at inner ⊢
    exact own inner m mount
  idle := h.idle

/-! ## The segment table, and the records in hand -/

theorem SegInv.withLog {s : State} (h : SegInv s) {l : Log} (table : TableInv l.segs)
    (grant : ∀ g, l.grant = some g → g.record.small) : SegInv { s with log := l } :=
  ⟨table, h.job, h.assembly, grant, h.copy, h.settings, h.array, h.programs, h.mountOps, h.mount⟩

theorem Acts.segInv {s t : State} (h : Acts s t) (inv : SegInv s) : SegInv t := by
  induction h with
  | refl s => exact inv
  | trans _ _ ih₁ ih₂ => exact ih₂ (ih₁ inv)
  | blocks s e g l r _ _ _ job assembly _ segs _ grant copy =>
    exact ⟨segs ▸ inv.table, fun j hj => job j hj inv, fun a ha => assembly a ha inv,
      fun g hg => grant g hg inv, fun c b hc hb => copy c b hc hb inv, inv.settings, inv.array,
      inv.programs, inv.mountOps, inv.mount⟩
  | modSeg s i f tame =>
    exact inv.withLog (inv.table.modify i (fun e => (tame e).opened) fun e _ => (tame e).used)
      inv.grant
  | occupy s g head small fits =>
    refine inv.withLog (inv.table.modify head (fun _ => id) fun e entry _ => ?_) fun g' hg => ?_
    · have room := fits inv
      rw [segAt, List.getD_eq_getElem?_getD, entry] at room
      rw [placedRecord_size]
      exact room
    · cases hg
      exact placedRecord_small (small inv)
  | changeHead s v stamp =>
    have table := inv.table.changeHead v stamp
    unfold Machine.changeHead at *
    dsimp only at *
    split at table
    · exact inv.withLog table inv.grant
    · exact inv.withLog table inv.grant
  | ask s op inner small =>
    have ops := inv.ops.ask (s := s) (op := op) (fun loc r same => small loc r same inv) inner
    obtain ⟨_, _, same⟩ := ask_frame op s
    rw [same] at ops ⊢
    exact inv.withOps ops rfl rfl rfl rfl rfl rfl
  | completeOp s =>
    have ops := inv.ops.completeOp (s := s)
    obtain ⟨_, _, same⟩ := completeOp_frame s
    rw [same] at ops ⊢
    exact inv.withOps ops rfl rfl rfl rfl rfl rfl
  | dropGetReads s => exact inv.withOps (inv.ops.dropGetReads (s := s)) rfl rfl rfl rfl rfl rfl
  | raise s n =>
    obtain ⟨_, _, _, same⟩ := raise_frame n s
    rw [same]
    exact inv.withOps inv.ops rfl rfl rfl rfl rfl rfl
  | enqueue | dirDrop => exact inv.withOps inv.ops rfl rfl rfl rfl rfl rfl

theorem mem_settingsPut {settings : List Setting} {t y : Setting} (h : y ∈ settingsPut settings t) :
    y = t ∨ y ∈ settings := by
  induction settings with
  | nil => exact .inl (List.mem_singleton.1 h)
  | cons x rest ih =>
    unfold settingsPut at h
    split at h
    · exact (List.mem_cons.1 h).imp_right (List.mem_cons_of_mem _)
    · split at h
      · exact List.mem_cons.1 h
      · rcases List.mem_cons.1 h with rfl | mem
        · exact .inr List.mem_cons_self
        · exact (ih mem).imp_right (List.mem_cons_of_mem _)

theorem Counts.segInv {s t : State} (h : Counts s t) (inv : SegInv s) : SegInv t := by
  induction h with
  | acts h => exact h.segInv inv
  | trans _ _ ih₁ ih₂ => exact ih₂ (ih₁ inv)
  | addLive s i n =>
    exact inv.withLog (inv.table.modify i (fun _ => id) fun _ _ => id) inv.grant
  | dirPut => exact inv.withOps inv.ops rfl rfl rfl rfl rfl rfl
  | settingsPut s t short =>
    refine ⟨inv.table, inv.job, inv.assembly, inv.grant, inv.copy, fun y mem => ?_, inv.array,
      inv.programs, inv.mountOps, inv.mount⟩
    rcases mem_settingsPut mem with rfl | mem
    · exact short inv
    · exact inv.settings y mem

theorem Works.segInv {may : Change → Prop} {s t : State} (h : Works may s t) (inv : SegInv s) :
    SegInv t := by
  induction h with
  | refl s => exact inv
  | trans _ _ ih₁ ih₂ => exact ih₂ (ih₁ inv)
  | acts _ h => exact h.segInv inv
  | @freed s _ rest =>
    obtain ⟨_, _, _, same⟩ := moveNotices_frame s.notices { s with replies := rest }
    rw [drainNotices, same]
    exact inv.withOps inv.ops rfl rfl rfl rfl rfl rfl
  | array s array free _ small =>
    exact ⟨inv.table, inv.job, inv.assembly, inv.grant, inv.copy, inv.settings, small inv,
      inv.programs, inv.mountOps, inv.mount⟩
  | ended s => exact (Acts.completeOp s).segInv inv
  | mount s m op inner _ table =>
    refine ⟨inv.table, inv.job, inv.assembly, inv.grant, inv.copy, inv.settings, inv.array,
      fun loc r mem => ?_, inv.mountOps, fun m' mount => ?_⟩
    · rw [List.append_assoc] at mem
      rcases List.mem_append.1 mem with cur | mem
      · cases inner _ (Option.mem_toList.1 cur)
      · exact inv.programs loc r (by rw [List.append_assoc]; exact List.mem_append_right _ mem)
    · cases mount
      exact table inv
  | context s ns mode mark =>
    exact ⟨inv.table, inv.job, inv.assembly, inv.grant, inv.copy, inv.settings, inv.array,
      inv.programs, inv.mountOps, inv.mount⟩
  | guards s locks downs gate fails =>
    exact ⟨inv.table, inv.job, inv.assembly, inv.grant, inv.copy, inv.settings, inv.array,
      inv.programs, inv.mountOps, inv.mount⟩
  | link | lines | reserve => exact inv.withOps inv.ops rfl rfl rfl rfl rfl rfl

/-- The array operation in progress is aborted, and a paused erase (R58, R82). -/
theorem works_abortArray (s : State) : Works (fun _ => True) s (abortArray s) := by
  have allowed : (fun _ : Change => True) .array := trivial
  have mark (i : Nat) (p : MarkPos) (carried : Nat) :
      Works (fun _ => True) s (abortMark i p carried s) := by
    unfold abortMark
    dsimp only
    split
    · exact .lines s s.powered s.rst (s.free + 1)
    · exact .trans (works_writeMark allowed i p carried _ s) (.lines _ s.powered s.rst (s.free + 1))
  have aborted : Works (fun _ => True) s (match s.ctrl.cur with
      | some op => abortOp op s
      | none => s) := by
    split
    · rename_i op cur
      cases op
      case programRecord loc r => exact works_writeSlot allowed loc r false _ s (small_of_cur cur)
      case erase | mountErase => exact works_halfErase allowed _ s
      case openedMark | filledMark | reclaimMark | eraseMark | erasedMark | retiredMark
        | mountOpenedMark | mountFilledMark | mountErasedMark | mountRetiredMark =>
        unfold abortOp
        exact mark _ _ _
      all_goals exact .refl s
    · exact .refl s
  unfold abortArray
  dsimp only
  split
  · exact .trans aborted (works_halfErase allowed _ _)
  · exact aborted

theorem AfterReset.segInv {s t : State} (h : AfterReset s t) (inv : SegInv s) : SegInv t where
  table := by
    rw [h.inv.log]
    exact ⟨Nat.zero_le _, nofun⟩
  job := by
    rw [h.inv.engine]
    nofun
  assembly := by
    rw [h.inv.engine]
    nofun
  grant := by
    rw [h.inv.log]
    nofun
  copy := by
    rw [h.inv.reclaim]
    nofun
  settings := by
    rw [h.inv.prot]
    nofun
  array := by
    rw [h.array]
    exact ((works_abortArray s).segInv inv).array
  programs := fun loc r mem => by
    rw [h.inv.queue, h.inv.held] at mem
    rcases h.working with ⟨none_, -⟩ | ⟨read, -⟩
    · simp [none_] at mem
    · simp [read] at mem
  mountOps := by
    rw [h.inv.queue, h.inv.held]
    nofun
  mount := fun m mount => by
    rcases h.working with ⟨-, none_⟩ | ⟨read, start⟩
    · rw [none_] at mount
      cases mount
    · rw [start] at mount
      cases mount
      rw [read]
      exact mountTableInv_start _ nofun

theorem Claims.segInv {s u : State} (h : Claims s u) (inv : SegInv s) : SegInv u := by
  rcases h.cases with ⟨loc, r, cur, counts⟩ | ⟨m, mount, -, rfl⟩
  · exact counts.segInv
      ((works_writeSlot (may := fun _ => True) trivial loc r true s.free s (small_of_cur cur)).segInv inv)
  · have table := inv.mount m mount
    exact ⟨table.table, inv.job, inv.assembly, inv.grant, inv.copy, table.settings, inv.array,
      inv.programs, inv.mountOps, nofun⟩

theorem exec_segInv {c : Instr} {s t : State} (next : exec c s = .next t) (inv : SegInv s) :
    SegInv t := by
  rcases exec_does next with (works | ⟨works, -, resets⟩) | ⟨claims, acts, -⟩
  · exact works.segInv inv
  · exact resets.afterReset.segInv (works.segInv inv)
  · exact acts.segInv (claims.segInv inv)

/-! ## Live bytes -/

theorem LiveWithinUsed.modify {segs : List SegEntry} (h : LiveWithinUsed segs) (i : Nat)
    {f : SegEntry → SegEntry} (live : ∀ e, segs[i]? = some e → e.live ≤ e.used →
      (f e).live ≤ (f e).used) : LiveWithinUsed (segs.modify i f) :=
  forall_mem_modify h i f live

theorem LiveWithinUsed.subLive {s : State} (h : LiveWithinUsed s.log.segs) (i n : Nat) :
    LiveWithinUsed (subLive i n s).log.segs :=
  h.modify i fun _ _ within => Nat.le_trans (Nat.sub_le _ _) within

/-- The blocks inside the part count no bytes live (R47). -/
theorem Acts.liveWithinUsed {s t : State} (h : Acts s t) (inv : SegInv s)
    (live : LiveWithinUsed s.log.segs) : LiveWithinUsed t.log.segs := by
  induction h with
  | trans first _ ih₁ ih₂ => exact ih₂ (first.segInv inv) (ih₁ inv live)
  | blocks s e g l r _ _ _ _ _ _ segs => exact segs ▸ live
  | modSeg s i f tame =>
    exact live.modify i fun e entry within =>
      (tame e).live (inv.table.used e (List.mem_of_getElem? entry)) within
  | occupy s g head =>
    exact live.modify head fun _ _ within => Nat.le_trans within (Nat.le_add_right _ _)
  | changeHead s v stamp =>
    have opened {segs : List SegEntry} (h : LiveWithinUsed segs) :
        LiveWithinUsed (segs.modify v fun e => e.openAs stamp) :=
      h.modify v fun _ _ _ => Nat.le_refl 0
    unfold Machine.changeHead
    dsimp only
    split
    · rename_i head _
      exact opened (segs := s.log.segs.modify head SegEntry.closed) (live.modify head fun e entry within =>
        Nat.le_trans within (inv.table.used e (List.mem_of_getElem? entry)))
    · exact opened live
  | ask s op =>
    obtain ⟨_, _, same⟩ := ask_frame op s
    rw [same]
    exact live
  | completeOp s => rwa [completeOp_log]
  | raise s n =>
    obtain ⟨_, _, _, same⟩ := raise_frame n s
    rw [same]
    exact live
  | refl | dropGetReads | enqueue | dirDrop => exact live

theorem Works.liveWithinUsed {may : Change → Prop} {s t : State} (h : Works may s t) (inv : SegInv s)
    (live : LiveWithinUsed s.log.segs) : LiveWithinUsed t.log.segs := by
  induction h with
  | trans first _ ih₁ ih₂ => exact ih₂ (first.segInv inv) (ih₁ inv live)
  | acts _ h => exact h.liveWithinUsed inv live
  | @freed s _ rest =>
    obtain ⟨_, _, _, same⟩ := moveNotices_frame s.notices { s with replies := rest }
    rw [drainNotices, same]
    exact live
  | ended s => rwa [completeOp_log]
  | refl | link | lines | context | guards | reserve | array | mount => exact live

/-- A segment has these bytes used and not live (R47). -/
def LiveRoom (segs : List SegEntry) (i n : Nat) : Prop := (segAt segs i).live + n ≤ (segAt segs i).used

/-- Bytes counted dead leave the room there is. -/
theorem LiveRoom.subLive {s : State} {i n : Nat} (h : LiveRoom s.log.segs i n) (k m : Nat) :
    LiveRoom (subLive k m s).log.segs i n := by
  unfold LiveRoom Machine.subLive modSeg at *
  dsimp only
  rw [segAt_modify]
  split_ifs
  · dsimp only
    omega
  · exact h

/-- Bytes are counted live where there is room. -/
theorem LiveWithinUsed.addLive {s : State} (h : LiveWithinUsed s.log.segs) {i n m : Nat}
    (room : LiveRoom s.log.segs i n) (few : m ≤ n) : LiveWithinUsed (addLive i m s).log.segs := by
  refine h.modify i fun e entry _ => ?_
  unfold LiveRoom at room
  rw [segAt, List.getD_eq_getElem?_getD, entry] at room
  dsimp only [Option.getD_some] at *
  omega

/-- Live bytes within the used, with room for more in a segment. -/
structure Roomy (s : State) (i n : Nat) : Prop where
  live : LiveWithinUsed s.log.segs
  room : LiveRoom s.log.segs i n

theorem Roomy.subLive {s : State} {i n : Nat} (h : Roomy s i n) (k m : Nat) :
    Roomy (subLive k m s) i n := ⟨h.live.subLive k m, h.room.subLive k m⟩

theorem Roomy.dropPrevious {s : State} {i n : Nat} (h : Roomy s i n) (ns : Nat) (key : Bytes) :
    Roomy (dropPrevious ns key s) i n := by
  unfold Machine.dropPrevious
  split
  · split
    · exact h.subLive _ _
    · exact h
  · exact h

theorem LiveWithinUsed.dropPrevious {s : State} (h : LiveWithinUsed s.log.segs) (ns : Nat)
    (key : Bytes) : LiveWithinUsed (dropPrevious ns key s).log.segs := by
  unfold Machine.dropPrevious
  split
  · split
    · exact h.subLive _ _
    · exact h
  · exact h

theorem live_putCompletion {s : State} {r : Record} {loc : Loc} (h : Roomy s loc.seg r.size) :
    LiveWithinUsed (putCompletion r.ns r.key r.sn r.value.length loc false s).log.segs :=
  have dropped := h.dropPrevious r.ns r.key
  dropped.live.addLive dropped.room (Nat.le_refl _)

/-- A put completion of a record whose bytes are live already counts none (R14). -/
theorem live_putCompletion_counted {s : State} (h : LiveWithinUsed s.log.segs) (ns : Nat)
    (key : Bytes) (sn length : Nat) (loc : Loc) :
    LiveWithinUsed (putCompletion ns key sn length loc true s).log.segs := h.dropPrevious ns key

theorem live_deleteCompletion {s : State} (h : LiveWithinUsed s.log.segs) (ns : Nat) (key : Bytes)
    (sn : Nat) (loc : Loc) (counted : Bool) :
    LiveWithinUsed (deleteCompletion ns key sn loc counted s).log.segs := by
  unfold deleteCompletion
  dsimp only
  split
  · exact (h.dropPrevious ns key).subLive _ _
  · exact h.dropPrevious ns key

theorem live_stage {s : State} {r : Record} {loc : Loc} (h : Roomy s loc.seg r.size) :
    LiveWithinUsed (stage (stagedEntry r loc) s).log.segs := by
  unfold stage
  dsimp only
  split
  · rename_i q _
    have superseded := h.subLive q.loc.seg q.recordSize
    exact superseded.live.addLive superseded.room (Nat.le_refl _)
  · exact h.live.addLive h.room (Nat.le_refl _)

/-- The pending operations count no bytes live, where every PUT among them is CURRENT (R14). -/
theorem live_applyPending {list : List Pending} (puts : ∀ p ∈ list, p.isPut = true → p.standing = .current)
    {s : State} (h : LiveWithinUsed s.log.segs) : LiveWithinUsed (applyPending list s).log.segs := by
  induction list generalizing s with
  | nil => exact h
  | cons p rest ih =>
    unfold applyPending
    dsimp only
    refine ih (fun q mem => puts q (List.mem_cons_of_mem _ mem)) ?_
    split
    · rename_i isPut
      rw [decide_eq_true (puts p List.mem_cons_self isPut)]
      exact live_putCompletion_counted h _ _ _ _ _
    · exact live_deleteCompletion h _ _ _ _ _

/-- The SYSTEM record of a settings write has room for the setting's bytes. -/
theorem writtenSetting_size {r : Record} (named : r.key ≠ []) (loc : Loc) :
    (writtenSetting r loc).recordSize ≤ r.size := by
  have := List.length_pos_iff.2 named
  unfold writtenSetting Setting.recordSize Record.size recordSize roundUp4
  dsimp only
  omega

theorem live_settingsWrite {s : State} {r : Record} {loc : Loc} (h : Roomy s loc.seg r.size)
    (named : r.key ≠ []) : LiveWithinUsed (settingsWrite (writtenSetting r loc) s).log.segs := by
  have few := writtenSetting_size named loc
  unfold settingsWrite
  dsimp only
  split
  · rename_i old _
    have dropped := h.subLive old.loc.seg old.recordSize
    exact dropped.live.addLive dropped.room few
  · exact h.live.addLive h.room few

theorem live_deadenAll (dir : List Entry) {s : State} (h : LiveWithinUsed s.log.segs) :
    LiveWithinUsed (deadenAll dir s).log.segs := by
  induction dir generalizing s with
  | nil => exact h
  | cons e rest ih =>
    unfold deadenAll
    refine ih ?_
    split
    · exact h.subLive _ _
    · exact h

/-- The claim of the engine's record keeps live within used, where there is room for the record (R47,
R52). -/
theorem live_engineClaim {s : State} {j : Job} {r : Record} {loc : Loc} (h : Roomy s loc.seg r.size)
    (setting : (j.purpose = .setting ∨ ∃ a b c, j.purpose = .formatRewrite a b c) → r.key ≠ [])
    (commit : j.purpose = .commit → ∀ p ∈ s.group.list, p.isPut = true → p.standing = .current) :
    LiveWithinUsed (engineClaim j r loc s).log.segs := by
  unfold engineClaim
  split
  · split
    · exact live_stage h
    · exact live_putCompletion h
  · split
    · exact live_stage h
    · exact live_deleteCompletion h.live _ _ _ _ _
  · rename_i purpose
    split
    · exact h.live
    · exact live_applyPending (commit purpose) h.live
  · rename_i purpose
    exact live_settingsWrite h (setting (.inl purpose))
  · exact live_deadenAll s.dir h.live
  · rename_i marker done rest purpose
    exact live_settingsWrite h (setting (.inr ⟨marker, done, rest, purpose⟩))

/-- The relocation of a copy keeps live within used, where there is room for it (R47, R77). -/
theorem live_relocate {s : State} {c : Copy} {dest : Loc} (h : Roomy s dest.seg c.size) :
    LiveWithinUsed (relocate c dest s).log.segs := by
  have moved (u : State) (same : u.log = s.log) :
      LiveWithinUsed (subLive c.loc.seg c.size (addLive dest.seg c.size u)).log.segs := by
    refine LiveWithinUsed.subLive (LiveWithinUsed.addLive (n := c.size) ?_ ?_ (Nat.le_refl _)) _ _
    · rw [same]
      exact h.live
    · rw [same]
      exact h.room
  unfold relocate
  split
  · unfold dirRelocation
    split
    · split
      · exact moved _ rfl
      · exact h.live
    · exact h.live
  · unfold groupRelocation
    split
    · exact moved s rfl
    · exact h.live
  · unfold settingsRelocation
    split
    · exact moved s rfl
    · exact h.live

theorem Claims.liveWithinUsed {s u : State} (h : Claims s u) (live : LiveWithinUsed s.log.segs)
    (fits : ClaimFits s) : LiveWithinUsed u.log.segs := by
  cases h with
  | @engine loc r g j cur grant claimant job =>
    refine live_engineClaim ⟨?_, ?_⟩ (fits.setting loc r g j cur grant job) ?_
    · rw [completeOp_log]
      exact live
    · rw [completeOp_log]
      exact fits.engine loc r g cur grant claimant
    · rw [completeOp_group]
      exact fits.commit j job
  | @copy loc r g c cur grant claimant copy =>
    refine live_relocate ⟨?_, ?_⟩
    · rw [completeOp_log]
      exact live
    · rw [completeOp_log]
      exact fits.copy loc r g c cur grant claimant copy
  | @install m mount => exact fits.mount m mount

theorem exec_liveWithinUsed {c : Instr} {s t : State} (next : exec c s = .next t) (inv : SegInv s)
    (live : LiveWithinUsed s.log.segs) (fits : ClaimFits s) : LiveWithinUsed t.log.segs := by
  rcases exec_does next with (works | ⟨-, -, resets⟩) | ⟨claims, acts, -⟩
  · exact works.liveWithinUsed inv live
  · rw [resets.afterReset.inv.log]
    nofun
  · exact acts.liveWithinUsed (claims.segInv inv) (claims.liveWithinUsed live fits)

/-- `SegInv` does not speak of the queue of commands. -/
theorem SegInv.withPending {s : State} (h : SegInv s) (rest : List Instr) :
    SegInv { s with pending := rest } := h.withOps h.ops rfl rfl rfl rfl rfl rfl

/-- Settles O6. -/
theorem everyStepKeepsTheRanges : Obligations.EveryStepKeepsTheRanges := by
  refine ⟨fun s t inv next => ?_, fun s t inv next => ?_, fun s t inv live fits next => ?_⟩
  · exact of_step next inv (fun _ h => ⟨h.fails, h.ns, h.watermark, h.pauses⟩)
      fun _ _ _ next inv => exec_rangeInv next inv
  · exact of_step next inv (fun rest h => h.withPending rest)
      fun _ _ _ next inv => exec_segInv next inv
  · unfold step at next
    split at next
    · cases next
      exact live
    · exact exec_liveWithinUsed next (inv.withPending _) live
        ⟨fits.engine, fits.setting, fits.commit, fits.copy, fits.mount⟩

end Sys2Proof.Machine
end

section
/-!
PROOFS. The queue of commands, the reset state, and what the resets leave (O1, O3, O12, O13, O14); two
requests that always answer at once (O30, O31).
-/

namespace Sys2Proof.Machine

open Sys2Proof

/-- Settles O1: both halves are the two branches of `step`. -/
theorem stepRunsFrontCommand : Obligations.StepRunsFrontCommand :=
  ⟨fun _ _ => rfl, fun s empty => by rw [step, empty]⟩

/-- The state after reset is what a reset leaves of it. -/
theorem afterReset_reset : AfterReset State.reset State.reset :=
  ⟨rfl, ⟨rfl, rfl, rfl, rfl, rfl, rfl, rfl, rfl, rfl, rfl, rfl, rfl, by rintro _ ⟨⟩; rfl⟩, rfl,
    .inl rfl, rfl, rfl, rfl, .inr ⟨rfl, rfl⟩⟩

theorem segInv_reset : SegInv State.reset where
  table := ⟨Nat.zero_le _, nofun⟩
  job := nofun
  assembly := nofun
  grant := nofun
  copy := nofun
  settings := nofun
  array := fun a mem t slot => by
    rw [List.eq_of_mem_replicate mem] at slot
    cases slot
  programs := by simp [State.reset, Controller.reset]
  mountOps := nofun
  mount := by
    rintro _ ⟨⟩
    exact mountTableInv_start _ nofun

/-- Settles O3: the state after reset is one that a reset leaves. -/
theorem resetStateMeetsTheInvariants : Obligations.ResetStateMeetsTheInvariants :=
  ⟨afterReset_reset.queueInv, afterReset_reset.dirInv, afterReset_reset.rangeInv
    ⟨Nat.zero_le _, Nat.zero_le _, Nat.zero_le _, Nat.zero_le _⟩, afterReset_reset.inv,
    afterReset_reset.controllerInv, segInv_reset⟩

/-- Settles O30: the emptiness of the payload decides between the two replies. -/
theorem protectStatusReportsProtection : Obligations.ProtectStatusReportsProtection := by
  intro s f rest h kind
  dsimp only
  have other : f.kind ∉ [kPut, kDelete, kSelect] := by rw [kind]; decide
  rw [take_protectStatus h kind, handleProtectStatus, ite_not]
  refine congrArg _ ?_
  by_cases form : f.payload = []
  · rw [if_pos form, if_pos form]
    exact endRequest_startRequest h other .ok _
  · rw [if_neg form, if_neg form]
    exact refuseForm_startRequest h other

/-- Settles O31: the one reply is decided with a slot open. -/
theorem unknownKindIsRefused : Obligations.UnknownKindIsRefused := by
  intro s f rest h unknown
  have kind : requestKinds.contains f.kind = false := by simpa using unknown
  rw [take_unknownKind h kind, handleUnknown]
  refine congrArg _ ((decide_one (s := startRequest f { s with inbound := rest }) ⟨h.slot, h.quiet⟩
    (breaking_of_rest (e := s.engine) h.idle) _).trans ?_)
  have same : (startRequest f { s with inbound := rest }).engine.toIdle = s.engine := h.idle
  rw [same]
  rfl

/-! ## Resets -/

/-- With no array operation in progress a reset changes nothing of the array (R58). -/
theorem abortArray_idle {s : State} (idle : s.ctrl.cur = none) (unpaused : s.ctrl.paused = none) :
    abortArray s = s := by
  simp [abortArray, idle, unpaused]

/-- What a reset leaves where no operation is aborted. -/
theorem resetBlocks_idle {s : State} (kind : ResetKind) (idle : abortArray s = s) :
    resetBlocks kind s = { heldReset kind s with
      powered := s.powered, rst := s.rst
      prot := Protection.reset (if kind = .resetRequest then s.prot.unlockFails else 0) } := by
  unfold resetBlocks
  rw [idle]
  rfl

theorem powerOn_idle {s : State} (idle : s.ctrl.cur = none) (unpaused : s.ctrl.paused = none) :
    powerOnEffect s =
      if s.rst then { heldReset .powerOn s with rst := true } else resetTo .powerOn 0 s := by
  have blocks := resetBlocks_idle (s := { s with powered := true }) .powerOn
    (abortArray_idle idle unpaused)
  unfold powerOnEffect
  dsimp only
  rw [blocks]
  cases held : s.rst with
  | true => rfl
  | false => rfl

theorem powerLoss_idle {s : State} (idle : s.ctrl.cur = none) (unpaused : s.ctrl.paused = none)
    (powered : s.powered = true) :
    powerLossEffect s = { heldReset s.resetKind s with powered := false, rst := s.rst } := by
  unfold powerLossEffect
  rw [if_pos powered, resetBlocks_idle .powerOn (abortArray_idle idle unpaused)]
  rfl

/-- RST is asserted for long enough (R108, R177). -/
theorem rstAsserted_full {s : State} (powered : s.powered = true) (released : s.rst = false) :
    exec (.rstAsserted .full) s = .next { resetBlocks .rstLine s with rst := true } := by
  change Host.Outcome.next (rstAssertedEffect .full s) = _
  unfold rstAssertedEffect rstAssert
  rw [released, if_neg Bool.false_ne_true, if_pos powered]

theorem rstAsserted_idle {s : State} (idle : abortArray s = s) (powered : s.powered = true)
    (released : s.rst = false) :
    exec (.rstAsserted .full) s = .next { heldReset .rstLine s with rst := true } := by
  rw [rstAsserted_full powered released, resetBlocks_idle .rstLine idle, powered]
  rfl

/-- RESET of a running part (R142, R164). -/
theorem resetPart_idle {s : State} (idle : s.ctrl.cur = none) (unpaused : s.ctrl.paused = none)
    (powered : s.powered = true) (released : s.rst = false) :
    resetPart .resetRequest s = resetTo .resetRequest s.prot.unlockFails s := by
  unfold resetPart
  rw [resetBlocks_idle .resetRequest (abortArray_idle idle unpaused), powered, released]
  rfl

/-- Settles O12: each reset is `resetBlocks`, which aborts nothing here. -/
theorem resetsLeaveTheResetState : Obligations.ResetsLeaveTheResetState := by
  intro s idle unpaused
  refine ⟨congrArg _ (powerOn_idle idle unpaused),
    fun powered => congrArg _ (powerLoss_idle idle unpaused powered),
    rstAsserted_idle (abortArray_idle idle unpaused), fun f rest h kind => ?_⟩
  rw [take_reset h kind]
  refine congrArg _ ?_
  by_cases form : f.payload = []
  · rw [handleReset, if_neg (not_not.2 form), if_pos form]
    exact resetPart_idle (s := { s with inbound := rest }) idle unpaused h.powered h.rst
  · rw [handleReset, if_pos form, if_neg form]
    exact refuseForm_startRequest h (by rw [kind]; decide)

/-- Settles O13: what `abortArray` does to a program and to a read; and the branches of the two commands
of RST. -/
theorem resetAbortsAndMountStartsAtRelease : Obligations.ResetAbortsAndMountStartsAtRelease := by
  refine ⟨fun s powered released unpaused => ⟨fun loc r cur => ?_, fun loc cur => ?_⟩,
    fun s => ⟨?_, fun powered held idle => ?_, fun unpowered held => ?_, fun released => ?_⟩⟩
  · have aborted : abortArray s = { writeSlot loc r false s with free := s.free + 1 } := by
      simp [abortArray, cur, unpaused, abortOp]
    have on : (writeSlot loc r false s).powered = true := powered
    rw [rstAsserted_full powered released, resetBlocks, aborted]
    refine congrArg Host.Outcome.next ?_
    dsimp only
    rw [on]
    rfl
  · refine rstAsserted_idle ?_ powered released
    simp [abortArray, cur, unpaused, abortOp]
  · change Host.Outcome.next (rstAssertedEffect .short s) = _
    unfold rstAssertedEffect
    split <;> rfl
  · change Host.Outcome.next (rstReleasedEffect s) = _
    unfold rstReleasedEffect
    rw [if_pos held]
    dsimp only
    rw [if_pos powered]
    rfl
  · change Host.Outcome.next (rstReleasedEffect s) = _
    unfold rstReleasedEffect
    rw [if_pos held]
    dsimp only
    rw [if_neg (by rw [unpowered]; nofun)]
  · change Host.Outcome.next (rstReleasedEffect s) = _
    unfold rstReleasedEffect
    rw [if_neg (by rw [released]; nofun)]

/-! ## RST asserted -/

theorem running_of_rst {s : State} (rst : s.rst = true) : running s = false := by
  simp [running, rst]

theorem transaction_of_rst {s : State} (rst : s.rst = true) (bytes : Bytes) (effect : State → State) :
    transaction bytes effect s = { s with sel := true } := by
  simp [transaction, linkReady, selIgnored, running_of_rst rst]

/-- While RST is asserted no frame is taken. -/
theorem takeHead_of_rst {s : State} (rst : s.rst = true) (sort : Frame → Bool) :
    takeHead sort s = s := by
  unfold takeHead
  split
  · rfl
  · simp [running_of_rst rst]

/-- While RST is asserted no command of engine or array has an effect. -/
theorem ite_running_of_rst {s t : State} (rst : s.rst = true) :
    (if running s then t else s) = s := by
  rw [running_of_rst rst, if_neg Bool.false_ne_true]

/-- Settles O14: a command of the link is a `transaction`; every other but those excepted is a take, or
guarded by `running`. -/
theorem heldInResetNothingChanges : Obligations.HeldInResetNothingChanges := by
  intro c s rst notReleased notPowerOn notPowerLoss notSelReleased
  refine ⟨fun bytes sends => ?_, fun silent => ?_⟩
  · cases sends <;> exact congrArg _ (transaction_of_rst rst _ _)
  · cases c
    case send kind tag payload crc => exact absurd (.send kind tag payload crc) (silent _)
    case sendBadLength kind tag length => exact absurd (.sendBadLength kind tag length) (silent _)
    case fetch => exact absurd .fetch (silent _)
    case take number => exact absurd (.take number) (silent _)
    case poll => exact absurd .poll (silent _)
    case cancel tag => exact absurd (.cancel tag) (silent _)
    case unknownOperation op => exact absurd (.unknownOperation op) (silent _)
    case transactionCut received open_ =>
      cases open_ with
      | true => exact absurd (.stillOpen received) (silent _)
      | false =>
        change Host.Outcome.next (if linkReady received s then selRelease s else s) = _
        simp [linkReady, running_of_rst rst]
    case powerOn => exact absurd rfl notPowerOn
    case powerLoss => exact absurd rfl notPowerLoss
    case rstReleased => exact absurd rfl notReleased
    case selReleased => exact absurd rfl notSelReleased
    case rstAsserted width => exact congrArg _ (if_pos rst)
    case assemblyTimerExpiry =>
      change Host.Outcome.next (timerExpired s) = _
      simp [timerExpired, running_of_rst rst]
    case ident | select | space | put | data | get | stat | delete | list | begin | commit | discard
      | tidy | format | setLimit | lock | lockdown | persist | gateClose | unlock | setPassphrase
      | setPolicy | finalize | protectStatus | reset | unknownKind =>
      exact congrArg _ (takeHead_of_rst rst _)
    all_goals exact congrArg _ (ite_running_of_rst rst)

end Sys2Proof.Machine
end

section
/-!
PROOFS. The message link (R166 to R170): SEND's verdicts, FETCH's answer, and transactions that are cut,
stand open, or follow a completed one (O15, O16, O22).
-/

namespace Sys2Proof.Machine

open Sys2Proof

/-! ## SEND -/

theorem exec_send_of_ready {s : State} (h : PortReady s) (kind tag : Byte) (payload : Bytes)
    (crc : BitVec 16) : exec (.send kind tag payload crc) s = .next (sendEffect kind tag payload crc s) :=
  congrArg _ (transaction_of_ready h (opSend :: sentFrame kind tag payload crc) _)

theorem length_sentFrame (kind tag : Byte) (payload : Bytes) (crc : BitVec 16) :
    1 + (sentFrame kind tag payload crc).length = 6 + payload.length := by
  simp only [sentFrame, sentBody, List.cons_append, List.length_cons, List.length_append,
    List.length_nil]
  omega

/-- A SEND within the length (R169). -/
theorem sendEffect_of_le {payload : Bytes} (short : payload.length ≤ 248) (kind tag : Byte)
    (crc : BitVec 16) (s : State) :
    sendEffect kind tag payload crc s =
      linked 0xA1 (6 + payload.length) (sentFrame kind tag payload crc)
        [sendVerdict kind tag payload crc s]
        { s with inbound :=
            if sendVerdict kind tag payload crc s = 0x00 then s.inbound ++ [⟨kind, tag, payload⟩]
            else s.inbound } := by
  have within : ¬ Config.maxPayload < payload.length := Nat.not_lt.2 short
  rw [sendEffect, if_neg within]
  dsimp only
  rw [length_sentFrame]
  change (if sendVerdict kind tag payload crc s = 0x00 then _ else _) = _
  split_ifs <;> rfl

theorem linkReady_of_ready {s : State} (h : PortReady s) (bytes : Bytes) : linkReady bytes s = true := by
  simp [linkReady, running, h.powered, h.rst, h.phase]

/-- A transaction that is cut leaves SEL released, where the port took it at all (R167). -/
theorem exec_cut (received : Bytes) (s : State) :
    exec (.transactionCut received) s =
      .next (if linkReady received s then selRelease s else s) := rfl

/-- Settles O15: the verdict's if-chain is `sendVerdict`'s; a SEND found too long ends at its length
byte; a cut one leaves SEL released again. -/
theorem sendIsJudgedInOrder : Obligations.SendIsJudgedInOrder := by
  intro s kind tag ready
  refine ⟨fun payload crc short => ?_, fun length _ => ?_, fun received released port => ?_⟩
  · rw [exec_send_of_ready ready, sendEffect_of_le short]
    rfl
  · refine ⟨tooLong kind tag length s,
      congrArg _ (transaction_of_ready ready [opSend, kind, tag, length] _), ?_, rfl, rfl, rfl, rfl⟩
    simp [sdo, tooLong, ready.powered, ready.rst, verdictBadLength]
  · have same : selRelease s = s := by
      rw [selRelease, ← released]
      exact congrArg (fun p => { s with port := p }) port.symm
    rw [exec_cut, if_pos (linkReady_of_ready ready _), same]

/-! ## FETCH -/

/-- What a completed transaction drives, the operation byte first: 0xFF, then the answer, then 0xFF
(R167). -/
theorem drives_linked (op : Byte) (collected answer : Bytes) (s : State) (i : Nat) :
    (linked op 1 collected answer s).port.drives i = (0xFF :: answer).getD i 0xFF := by
  cases i <;> simp [Port.drives, nothingByte]

/-- Settles O16: a ready port runs FETCH, whose answer is the head frame's bytes. -/
theorem fetchReadsTheHead : Obligations.FetchReadsTheHead := by
  intro s ready answer
  have same : fetchAnswer s = answer := by
    simp only [answer]
    unfold fetchAnswer
    cases s.replies <;> rfl
  refine ⟨?_, ?_, rfl, fun i k low => ?_⟩
  · rw [← same]
    exact congrArg _ (transaction_of_ready ready [opFetch] _)
  · simp [sdo, ready.powered, ready.rst, nothingByte]
  · have place : (8 * i + k) / 8 = i ∧ (8 * i + k) % 8 = k := by omega
    rw [sdoBit, place.1, place.2, drives_linked]
    simp [ready.powered, ready.rst]

/-! ## Bits and bytes on SDI -/

/-- The bits that carry a byte make up that byte. -/
theorem ofBoolListBE_bits (b : Byte) :
    BitVec.ofBoolListBE [b.getMsbD 0, b.getMsbD 1, b.getMsbD 2, b.getMsbD 3, b.getMsbD 4, b.getMsbD 5,
      b.getMsbD 6, b.getMsbD 7] = b := by
  refine BitVec.eq_of_getMsbD_eq fun i low => ?_
  rw [BitVec.getMsbD_ofBoolListBE]
  have : i < 8 := low
  interval_cases i <;> rfl

theorem bytesOfBits_of_short {last : List Bool} (short : last.length < 8) : bytesOfBits last = [] := by
  match last with
  | [] | [_] | [_, _] | [_, _, _] | [_, _, _, _] | [_, _, _, _, _] | [_, _, _, _, _, _]
  | [_, _, _, _, _, _, _] => rfl
  | _ :: _ :: _ :: _ :: _ :: _ :: _ :: _ :: rest =>
    simp only [List.length_cons] at short
    omega

/-- Eight bits make a byte, and fewer at the end none (R166). -/
theorem bytesOfBits_bitsOfBytes (received : Bytes) {last : List Bool} (short : last.length < 8) :
    bytesOfBits (bitsOfBytes received ++ last) = received := by
  induction received with
  | nil => exact bytesOfBits_of_short short
  | cons b rest ih =>
    have first : bytesOfBits (bitsOfBytes (b :: rest) ++ last) =
        BitVec.ofBoolListBE [b.getMsbD 0, b.getMsbD 1, b.getMsbD 2, b.getMsbD 3, b.getMsbD 4,
          b.getMsbD 5, b.getMsbD 6, b.getMsbD 7] :: bytesOfBits (bitsOfBytes rest ++ last) := rfl
    rw [first, ih, ofBoolListBE_bits]

/-! ## A transaction that stands open -/

/-- What the port has received of an open transaction, it goes on from (R167). -/
theorem linkReady_receive {s : State} (h : PortReady s) (received bytes : Bytes) :
    linkReady bytes (receive received s) = true ↔ received <+: bytes := by
  have held : (receive received s).port.hostBytes = received := by
    cases received <;> rfl
  have runs : running (receive received s) = true := by simp [running, receive, h.powered, h.rst]
  rw [linkReady, held, runs]
  simp [receive]

theorem transaction_receive {s : State} (h : PortReady s) (received bytes : Bytes)
    (effect : State → State) :
    transaction bytes effect (receive received s) =
      if received <+: bytes then effect (receive received s) else receive received s := by
  have runs : running (receive received s) = true := by simp [running, receive, h.powered, h.rst]
  simp only [transaction, linkReady_receive h, selIgnored, runs, if_true]

/-- A command of the link runs as from the start, where its bytes go on from those received, and else
has no effect. -/
theorem exec_of_receive {s : State} (h : PortReady s) (received : Bytes) {c : Instr} {bytes : Bytes}
    (sends : Sends c bytes) (formed : c.wellFormed = true) :
    (received <+: bytes → exec c (receive received s) = exec c s) ∧
      (¬ received <+: bytes → exec c (receive received s) = .next (receive received s)) := by
  have goesOn (bytes : Bytes) (effect : State → State)
      (same : effect (receive received s) = effect s) :
      (received <+: bytes → (Host.Outcome.next (transaction bytes effect (receive received s)) :
          Host.Outcome State Fault Refusal) = .next (transaction bytes effect s)) ∧
        (¬ received <+: bytes → (Host.Outcome.next (transaction bytes effect (receive received s)) :
          Host.Outcome State Fault Refusal) = .next (receive received s)) := by
    refine ⟨fun begins => ?_, fun other => ?_⟩
    · rw [transaction_receive h, if_pos begins, transaction_of_ready h, same]
    · rw [transaction_receive h, if_neg other]
  cases sends with
  | send kind tag payload crc => exact goesOn (opSend :: sentFrame kind tag payload crc) _ rfl
  | sendBadLength kind tag length => exact goesOn [opSend, kind, tag, length] _ rfl
  | fetch => exact goesOn [opFetch] _ rfl
  | take number => exact goesOn [opTake, number] _ rfl
  | poll => exact goesOn [opPoll] _ rfl
  | cancel tag => exact goesOn [opCancel, tag] _ rfl
  | unknownOperation operation => exact goesOn [operation] _ rfl
  | stillOpen =>
    have incomplete : incompleteTransaction bytes = true := formed
    refine goesOn bytes _ ?_
    rw [incomplete, if_pos rfl, if_pos rfl]

/-- The part resets and mount starts while SEL stands asserted (R164, R176). -/
theorem resetPart_of_sel {s : State} (kind : ResetKind) (sel : s.sel = true) :
    (resetPart kind s).sel = true ∧
      (resetPart kind s).port = { Port.reset with phase := .abandoned } ∧
      (resetPart kind s).powered = s.powered ∧ (resetPart kind s).rst = s.rst := by
  obtain ⟨array, free, aborted⟩ := abortArray_frame s
  unfold resetPart resetBlocks startMount portAfterReset
  rw [aborted]
  exact ⟨sel, if_pos sel, rfl, rfl⟩

/-! ## The release of SEL -/

theorem exec_cut_of_shut {s : State} (h : PortShut s) (received : Bytes) :
    exec (.transactionCut received) s = .next s := by
  rw [exec_cut, if_neg (by simp [linkReady, h.started, h.closed])]

theorem AtTake.receive {s : State} {f : Frame} {rest : List Frame} (h : AtTake s f rest)
    (received : Bytes) : AtTake (Machine.receive received s) f rest :=
  ⟨h.powered, h.rst, h.mounted, h.idle, h.head, h.slot, h.quiet⟩

/-- Settles O22: a cut transaction releases SEL; an open one is `receive`, which every command of the
link reads only through the bytes it holds; and a port that has answered is shut. -/
theorem selReleaseEndsTheTransaction : Obligations.SelReleaseEndsTheTransaction := by
  refine ⟨fun s => ⟨rfl, ?_, fun received ready formed => ⟨?_, fun last => bytesOfBits_bitsOfBytes _⟩⟩,
    fun s received ready formed => ?_, fun s powered rst started closed => ?_⟩
  · simp [sdo]
  · exact (exec_cut received s).trans (congrArg _ (if_pos (linkReady_of_ready ready received)))
  · have incomplete : incompleteTransaction received = true := formed
    have opens : exec (.transactionCut received true) s = .next (receive received s) := by
      refine congrArg _ ((transaction_of_ready ready received _).trans ?_)
      rw [if_pos incomplete]
    refine ⟨_, opens, rfl, rfl, ?_, rfl, ?_, fun i => ?_,
      fun c bytes sends => exec_of_receive ready received sends,
      fun bytes => ?_, fun f rest h kind form => ?_⟩
    · cases received <;> rfl
    · simp [sdo, receive, ready.powered, ready.rst, nothingByte]
    · simp [Port.drives, receive, nothingByte]
    · exact (exec_cut bytes _).trans (congrArg _ (if_congr (linkReady_receive ready received bytes) rfl rfl))
    · rw [take_reset (h.receive received) kind, handleReset, if_neg (not_not.2 form)]
      obtain ⟨sel, port, on, off⟩ :=
        resetPart_of_sel (s := { receive received s with inbound := rest }) .resetRequest rfl
      refine ⟨_, rfl, sel, by rw [port], by rw [port]; rfl, ?_⟩
      have powered : (resetPart .resetRequest { receive received s with inbound := rest }).powered = true :=
        on.trans ready.powered
      have rst : (resetPart .resetRequest { receive received s with inbound := rest }).rst = false :=
        off.trans ready.rst
      simp [sdo, powered, rst, sel, port, Port.reset, nothingByte]
  · have shut : PortShut s := ⟨powered, rst, started, closed⟩
    exact ⟨exec_send_of_shut shut, fun kind tag length => congrArg _ (transaction_of_shut shut _ _),
      exec_take_of_shut shut, exec_cancel_of_shut shut, exec_fetch_of_shut shut, exec_poll_of_shut shut,
      fun op => congrArg _ (transaction_of_shut shut _ _),
      fun received => ⟨exec_cut_of_shut shut received, congrArg _ (transaction_of_shut shut _ _)⟩⟩

end Sys2Proof.Machine
end

section
/-!
PROOFS. What a freed reply slot sets going, TAKE, and CANCEL (R157, R161, R162, R171, R173): O17, O19,
O20.
-/

namespace Sys2Proof.Machine

open Sys2Proof

/-! ## The end of a request, with or without a slot -/

/-- A reply may enter the reply queue (R157). -/
theorem mayQueue_of_open {s : State} (h : SlotOpen s) : (slotFree s && s.notices.isEmpty) = true := by
  rw [slotFree_of_open h, h.quiet]
  rfl

/-- The current request's reply is queued, or waits in REPLY_WAIT. -/
theorem decide_decides {s : State} {r : Request} (unbroken : s.engine.breaking = none) (status : Status)
    (payload : Bytes) : decide_ [r.reply status payload] s = decidedReply r status payload s := by
  unfold decidedReply
  split_ifs with slot
  · exact decide_one ⟨slot.1, slot.2⟩ unbroken _
  · have full : (slotFree s && s.notices.isEmpty) = false := by
      rw [Bool.eq_false_iff, ne_eq, Bool.and_eq_true, List.isEmpty_iff]
      exact fun h => slot ⟨of_decide_eq_true h.1, h.2⟩
    unfold decide_ moveDecided
    rw [if_neg (by rw [Bool.not_eq_true]; exact full)]
    rfl

/-- The current request ends with a reply its mode does not omit. -/
theorem endRequest_decides {s : State} {r : Request} (request : s.engine.request = some r)
    (unbroken : s.engine.breaking = none) {status : Status} (queued : status ≠ .ok) (payload : Bytes) :
    endRequest status payload s = decidedReply r status payload s := by
  unfold endRequest
  rw [request]
  dsimp only
  rw [omitted_of_ne_ok _ queued, if_neg Bool.false_ne_true, decide_decides unbroken]

/-- With no slot left the replies decided wait. -/
theorem moveDecided_full {s : State} {waiting : List Out} (full : slotFree s = false)
    (some_ : waiting ≠ []) :
    moveDecided waiting s = { s with engine := { s.engine with decided := waiting } } := by
  cases waiting with
  | nil => exact absurd rfl some_
  | cons o rest => rw [moveDecided, full, Bool.false_and, if_neg Bool.false_ne_true]

/-- With no slot free the current request's reply waits in REPLY_WAIT. -/
theorem endRequest_waits {s : State} {r : Request} (request : s.engine.request = some r)
    (full : ¬ s.replies.length < 8) (status : Status) (payload : Bytes)
    (queued : omitted r.kind status r.mode = false) :
    endRequest status payload s = { s with engine := { s.engine with
      state := .replyWait, assembly := none, job := none, stream := none
      decided := [{ kind := r.kind + 0x80, tag := r.tag, status := status, payload := payload }] } } := by
  have closed : slotFree s = false := decide_eq_false full
  unfold endRequest
  rw [request]
  dsimp only
  rw [queued, if_neg Bool.false_ne_true]
  unfold decide_
  rw [moveDecided_full (by exact closed) (by simp)]
  rfl

/-- What the engine had in hand makes no difference to the end of its request. -/
theorem decidedReply_dropStream (r : Request) (status : Status) (payload : Bytes) (s : State) :
    decidedReply r status payload { s with engine := { s.engine with stream := none } } =
      decidedReply r status payload s := by
  unfold decidedReply
  split_ifs <;> rfl

/-! ## A freed slot -/

theorem drainNotices_quiet {s : State} (quiet : s.notices = []) : drainNotices s = s := by
  unfold drainNotices
  rw [quiet, moveNotices, ← quiet]

/-- The one slot free goes to the oldest notice. -/
theorem drainNotices_one {s : State} {n : Notice} {more : List Notice} (pending : s.notices = n :: more)
    (one : s.replies.length = 7) :
    drainNotices s = replied n.out { s with notices := more } := by
  have free : slotFree s = true := by simp [slotFree, one, Config.replySlots]
  unfold drainNotices
  rw [pending, moveNotices, if_pos free]
  cases more with
  | nil => rfl
  | cons m rest =>
    have full : slotFree (enqueue n.out s) = false := by
      simp [slotFree, enqueue, one, Config.replySlots]
    rw [moveNotices, full, if_neg Bool.false_ne_true]
    rfl

theorem offerChunk_full {s : State} (full : slotFree s = false) : offerChunk s = s := by
  unfold offerChunk
  rw [full]
  split
  · split <;> rfl
  · rfl

/-- With the freed slot gone to a notice nothing else happens (R157). -/
theorem slotFreed_notice {s : State} {n : Notice} {more : List Notice} (pending : s.notices = n :: more)
    (one : s.replies.length = 7) (waits : s.engine.state = .replyWait → s.engine.decided ≠ []) :
    slotFreed s = replied n.out { s with notices := more } := by
  unfold slotFreed
  rw [drainNotices_one pending one]
  have full : slotFree (replied n.out { s with notices := more }) = false := by
    simp [slotFree, replied, one, Config.replySlots]
  cases state : s.engine.state with
  | replyWait =>
    have some_ : s.engine.decided.isEmpty = false := by simpa using waits state
    have same : moveDecided s.engine.decided (replied n.out { s with notices := more }) =
        replied n.out { s with notices := more } := moveDecided_full full (waits state)
    have settled : settleReplies (replied n.out { s with notices := more }) =
        replied n.out { s with notices := more } := by
      simp [settleReplies, replied, some_]
    have stays : continueBreaking (replied n.out { s with notices := more }) =
        replied n.out { s with notices := more } := by
      simp only [continueBreaking, replied, some_]
      split <;> rfl
    simp only [replied, state] at same settled stays ⊢
    rw [same, settled, stays]
  | streaming =>
    have same := offerChunk_full full
    simp only [replied, state] at same ⊢
    exact same
  | idle | assembling | busy | waitingSpace => simp only [replied, state]

/-- With no notice pending the last reply decided takes the slot. -/
theorem moveDecided_open {s : State} {o : Out} (slot : SlotOpen s) :
    moveDecided [o] s = replied o { s with engine := { s.engine with decided := [] } } := by
  rw [moveDecided, if_pos (mayQueue_of_open slot)]
  rfl

/-! ## TAKE -/

theorem exec_take_of_ready {s : State} (h : PortReady s) (number : Byte) :
    exec (.take number) s = .next (takeEffect number s) :=
  congrArg _ (transaction_of_ready h [opTake, number] _)

/-- TAKE names the head's number: the head leaves, and its slot is free (R171). -/
theorem exec_take_accepted {s : State} {r : Reply} {rest : List Reply} (h : PortReady s)
    (head : s.replies = r :: rest) :
    exec (.take r.seq) s = .next (slotFreed { linked 0xA3 2 [] [0x00] s with replies := rest }) := by
  rw [exec_take_of_ready h, takeEffect, head]
  exact congrArg _ (if_pos rfl)

/-- In STREAMING the chunk that waits takes the slot. -/
theorem slotFreed_streaming {s : State} (quiet : s.notices = []) (state : s.engine.state = .streaming) :
    slotFreed s = offerChunk s := by
  unfold slotFreed
  rw [drainNotices_quiet quiet]
  simp only [state]

theorem slotFreed_replyWait {s : State} {o : Out} (slot : SlotOpen s)
    (state : s.engine.state = .replyWait) (decided : s.engine.decided = [o]) :
    slotFreed s = continueBreaking (settleReplies
      (replied o { s with engine := { s.engine with decided := [] } })) := by
  unfold slotFreed
  rw [drainNotices_quiet slot.quiet]
  dsimp only
  split
  · rw [decided, moveDecided_open slot]
  all_goals
    rename_i other
    rw [state] at other
    cases other

/-- The freed slot stays free where nothing waits for it. -/
theorem slotFreed_idle {s : State} (quiet : s.notices = []) (answered : s.engine.state ≠ .replyWait)
    (streamed : s.engine.state ≠ .streaming) : slotFreed s = s := by
  unfold slotFreed
  rw [drainNotices_quiet quiet]
  cases state : s.engine.state <;> simp_all

/-- A chunk's payload (R35; spec/10, Reply payloads). -/
theorem chunkPayload_eq (st : Stream) (last : Bool) (data : Bytes) :
    chunkPayload st.version st.length st.sent (decide (st.sent = 0)) last data =
      le 4 st.version ++ le 2 st.length ++
        le 2 (st.sent % 8192 + (if st.sent = 0 then 16384 else 0) + if last then 32768 else 0) ++ data := by
  simp only [chunkPayload, offsetFlags, decide_eq_true_eq]

/-- The chunk that waits enters the reply queue, and another follows it. -/
theorem offerChunk_more {s : State} {q : Request} {st : Stream} {data : Bytes} (slot : SlotOpen s)
    (request : s.engine.request = some q) (stream : s.engine.stream = some st)
    (chunk : st.chunk = some data) (more : 240 < st.length - st.sent) :
    offerChunk s = ask (.chunkRead st.loc true)
      (replied (q.reply .ok (chunkPayload st.version st.length st.sent (decide (st.sent = 0)) false data))
        { s with engine := { s.engine with
          stream := some { st with sent := st.sent + 240, chunk := none } } }) := by
  have last : chunkIsLast st.sent st.length = false := decide_eq_false (Nat.not_le.2 more)
  conv_lhs => simp only [offerChunk, request, stream, chunk]
  rw [if_pos (mayQueue_of_open slot), last, if_neg Bool.false_ne_true]
  rfl

/-- The chunk that waits enters the reply queue, and the value ends in it. -/
theorem offerChunk_last {s : State} {q : Request} {st : Stream} {data : Bytes} (slot : SlotOpen s)
    (request : s.engine.request = some q) (stream : s.engine.stream = some st)
    (chunk : st.chunk = some data) (ends : st.length - st.sent ≤ 240) :
    offerChunk s = releasePin st.loc.seg
      (replied (q.reply .ok (chunkPayload st.version st.length st.sent (decide (st.sent = 0)) true data))
        { s with engine := s.engine.toIdle }) := by
  have last : chunkIsLast st.sent st.length = true := decide_eq_true ends
  conv_lhs => simp only [offerChunk, request, stream, chunk]
  rw [if_pos (mayQueue_of_open slot), last, if_pos rfl]
  rfl

/-- LOCKDOWN with no slot free: its reply waits (R135, R152). -/
theorem handleLockdown_full {s : State} {f : Frame} {mask : Byte} (kind : f.kind = kLockdown)
    (full : ¬ s.replies.length < 8) (form : f.payload = [mask]) :
    handleLockdown f s = { s with
      prot := { s.prot with lockdowns := s.prot.lockdowns ||| mask }
      engine := { s.engine with
        state := .replyWait, request := some (requestOf f s), assembly := none, job := none
        stream := none
        decided := [{ kind := f.kind + 0x80, tag := f.tag, status := .ok
                      payload := [s.prot.lockdowns ||| mask] }] } } := by
  unfold handleLockdown
  rw [form]
  have waits := endRequest_waits (s := { startRequest f s with
    prot := { s.prot with lockdowns := s.prot.lockdowns ||| mask } }) (r := requestOf f s) rfl full .ok
    [s.prot.lockdowns ||| mask]
    (omitted_eq_false (by rw [show (requestOf f s).kind = kLockdown from kind]; decide) _ _)
  exact waits

/-- Settles O17. -/
theorem takeRemovesTheHeadAndServesWaiting : Obligations.TakeRemovesTheHeadAndServesWaiting := by
  refine ⟨fun s number ready => ⟨fun none_ => ?_, fun r rest head => ⟨fun stale => ?_,
      fun named quiet answered streamed => ?_⟩⟩,
    fun s r rest o ready head one state decided unbroken => ⟨fun n more pending => ?_, fun quiet => ?_⟩,
    fun s r rest ready head one => ⟨fun n more pending waits => ?_,
      fun q st data quiet state request stream chunk => ⟨fun more idle empty => ?_,
        fun ends other => ?_, fun ends waits victim sound idle empty unpaused => ?_⟩,
      fun o f mask quiet state decided breaking kind form => ?_⟩⟩
  · rw [exec_take_of_ready ready, takeEffect, none_]
    rfl
  · rw [exec_take_of_ready ready, takeEffect, head]
    exact congrArg _ (if_neg stale)
  · subst named
    rw [exec_take_accepted ready head]
    exact congrArg _ (slotFreed_idle (s := { linked 0xA3 2 [] [0x00] s with replies := rest }) quiet
      answered streamed)
  · rw [exec_take_accepted ready head]
    exact congrArg _ (slotFreed_notice (s := { linked 0xA3 2 [] [0x00] s with replies := rest }) pending
      one fun _ => by simp [decided])
  · have slot : SlotOpen { linked 0xA3 2 [] [0x00] s with replies := rest } := ⟨by simp [one], quiet⟩
    rw [exec_take_accepted ready head, slotFreed_replyWait slot state decided]
    refine congrArg _ ?_
    rw [settleReplies, if_pos (by simp [replied, unbroken])]
    rfl
  · rw [exec_take_accepted ready head]
    exact congrArg _ (slotFreed_notice (s := { linked 0xA3 2 [] [0x00] s with replies := rest }) pending
      one waits)
  · have slot : SlotOpen { linked 0xA3 2 [] [0x00] s with replies := rest } := ⟨by simp [one], quiet⟩
    rw [exec_take_accepted ready head, slotFreed_streaming slot.quiet state,
      offerChunk_more slot request stream chunk more, chunkPayload_eq,
      ask_idle _ _ (by exact idle)
        (admits_idle _ (by exact idle) (by exact empty) (.inl (by simp [ArrayOp.requester])))]
    rfl
  · have slot : SlotOpen { linked 0xA3 2 [] [0x00] s with replies := rest } := ⟨by simp [one], quiet⟩
    rw [exec_take_accepted ready head, slotFreed_streaming slot.quiet state,
      offerChunk_last slot request stream chunk ends, chunkPayload_eq, releasePin_plain (by exact other)]
    rfl
  · have slot : SlotOpen { linked 0xA3 2 [] [0x00] s with replies := rest } := ⟨by simp [one], quiet⟩
    rw [exec_take_accepted ready head, slotFreed_streaming slot.quiet state,
      offerChunk_last slot request stream chunk ends, chunkPayload_eq,
      releasePin_erases (by exact waits) (by exact victim) (by exact sound),
      ask_idle _ _ (by exact idle)
        (admits_idle _ (by exact idle) (by exact empty) (.inr (by exact unpaused)))]
    rfl
  · have slot : SlotOpen { linked 0xA3 2 [] [0x00] s with replies := rest } := ⟨by simp [one], quiet⟩
    rw [exec_take_accepted ready head, slotFreed_replyWait slot state decided]
    refine congrArg _ ?_
    rw [settleReplies, if_neg (by simp [replied, breaking])]
    unfold continueBreaking
    simp only [replied, linked_engine, breaking]
    rw [if_pos (by rfl), handleFrame_lockdown _ kind,
      handleLockdown_full kind (by simp [one]) form, kind]
    rfl

/-! ## CANCEL -/

theorem exec_cancel_of_ready {s : State} (h : PortReady s) (tag : Byte) :
    exec (.cancel tag) s = .next (cancelEffect tag s) :=
  congrArg _ (transaction_of_ready h [opCancel, tag] _)

/-- CANCEL removes the queued frames, and reaches the current request where it has the tag. -/
theorem cancelEffect_eq (tag : Byte) (s : State) :
    cancelEffect tag s =
      match s.engine.request with
      | some r => if r.tag = tag then cancelRequest (cancelled tag s) else cancelled tag s
      | none => cancelled tag s := by
  unfold cancelEffect cancelled
  simp only [ne_eq, decide_not]
  rfl

theorem exec_cancel_none {s : State} {tag : Byte} (h : PortReady s)
    (other : ∀ r, s.engine.request = some r → r.tag ≠ tag) :
    exec (.cancel tag) s = .next (cancelled tag s) := by
  rw [exec_cancel_of_ready h, cancelEffect_eq]
  cases request : s.engine.request with
  | none => rfl
  | some r => exact congrArg _ (if_neg (other r request))

theorem exec_cancel_current {s : State} {r : Request} (h : PortReady s)
    (request : s.engine.request = some r) :
    exec (.cancel r.tag) s = .next (cancelRequest (cancelled r.tag s)) := by
  rw [exec_cancel_of_ready h, cancelEffect_eq, request]
  exact congrArg _ (if_pos rfl)

/-- Settles O19: what CANCEL does to the current request leaves queue and port alone. -/
theorem cancelRemovesQueuedFrames : Obligations.CancelRemovesQueuedFrames := by
  intro s tag ready
  refine ⟨?_, exec_cancel_none ready⟩
  by_cases current : ∃ r, s.engine.request = some r ∧ r.tag = tag
  · obtain ⟨r, request, rfl⟩ := current
    have outside := (acts_cancelRequest (cancelled r.tag s)).moves.sameOutside
    exact ⟨_, exec_cancel_current ready request, outside.inbound, outside.port⟩
  · exact ⟨_, exec_cancel_none ready fun r request same => current ⟨r, request, same⟩, rfl, rfl⟩

/-! ## CANCEL of the current request -/

/-- An engine record is withdrawn by CANCEL before its placement: its claim and its need are over, the
grant is what is left of it, the reservation it took is returned, and the reply is CANCELLED (R41). -/
def withdrawn (r : Request) (j : Job) (grant : Option Grant) (s : State) : State :=
  decidedReply r .cancelled []
    { s with
      log := { s.log with engineWaits := false, grant := grant }
      reclaim := { s.reclaim with foreground := false }
      group := { s.group with
        reserved :=
          if j.purpose = .put true then s.group.reserved.erase (j.record.ns, j.record.key)
          else s.group.reserved } }

theorem returnReservation_engine (j : Job) (s : State) : (returnReservation j s).engine = s.engine := by
  unfold returnReservation
  split <;> rfl

theorem endJob_withdrawn {s : State} {r : Request} {j : Job} (request : s.engine.request = some r)
    (unbroken : s.engine.breaking = none) (job : s.engine.job = some j)
    (first : ∀ marker done left, j.purpose ≠ .formatRewrite marker done left) (grant : Option Grant) :
    endJob .cancelled { s with log := { s.log with grant := grant } } = withdrawn r j grant s := by
  have payload : j.endPayload = [] := by
    unfold Job.endPayload
    split
    · exact absurd ‹_› (first _ _ _)
    · rfl
  unfold endJob
  dsimp only
  rw [job]
  dsimp only
  rw [payload, endRequest_decides (r := r)]
  · unfold withdrawn jobGroupEffect returnReservation
    cases j.purpose with
    | put reserved => cases reserved <;> rfl
    | delete | commit | setting | formatMarker | formatRewrite => rfl
  · exact (congrArg Engine.request (returnReservation_engine j _)).trans request
  · exact (congrArg Engine.breaking (returnReservation_engine j _)).trans unbroken
  · decide

theorem cancelRequest_job {s : State} {r : Request} {j : Job} (request : s.engine.request = some r)
    (busy : s.engine.state = .busy ∨ s.engine.state = .waitingSpace) (other : r.kind ≠ 0x18)
    (job : s.engine.job = some j) : cancelRequest s = cancelJob j s := by
  have idle : tidyRunning s = false := by
    have kind : decide (r.kind = kTidy) = false := decide_eq_false other
    unfold tidyRunning
    rw [request]
    dsimp only
    rw [kind, Bool.and_false]
  unfold cancelRequest
  rw [idle]
  rcases busy with state | state <;> simp only [state, job] <;> rfl

theorem cancelRequest_replyWait {s : State} (state : s.engine.state = .replyWait) :
    cancelRequest s = s := by
  unfold cancelRequest
  simp only [state]

theorem cancelRequest_assembling {s : State} (state : s.engine.state = .assembling) :
    cancelRequest s = endRequest .cancelled [] s := by
  unfold cancelRequest
  simp only [state]

theorem cancelRequest_tidy {s : State} {r : Request} (request : s.engine.request = some r)
    (state : s.engine.state = .busy) (kind : r.kind = kTidy) :
    cancelRequest s =
      { s with reclaim := { s.reclaim with tidyRemaining := 0, tidyCancelled := true } } := by
  have tidy : tidyRunning s = true := by simp [tidyRunning, request, state, kind]
  unfold cancelRequest
  rw [tidy]
  simp only [state]
  rfl

theorem cancelRequest_streaming {s : State} {st : Stream} (state : s.engine.state = .streaming)
    (stream : s.engine.stream = some st) : cancelRequest s = cancelStream st s := by
  unfold cancelRequest
  simp only [state, stream]

theorem cancelJob_later {s : State} {j : Job} (later : jobCancellable j = false) :
    cancelJob j s = s := by
  unfold cancelJob
  rw [later]
  rfl

/-- The record of this grant is placed. -/
theorem Grant.unplaced_of_programming {g : Grant} {loc : Loc} (stage : g.stage = .programming loc)
    (c : Claimant) : g.unplaced c = false := by
  unfold Grant.unplaced
  rw [stage]
  exact Bool.and_false _

/-- A record that has been placed is not withdrawn (R41). -/
theorem cancelJob_placed {s : State} {j : Job} {g : Grant} {loc : Loc} (grant : s.log.grant = some g)
    (own : g.claimant = .engine) (stage : g.stage = .programming loc) (kept : g.abandoned = false) :
    cancelJob j s = s := by
  unfold cancelJob
  rw [grant]
  dsimp only
  rw [Grant.unplaced_of_programming stage, own, kept]
  split <;> rfl

theorem jobCancellable_of_first {j : Job}
    (first : ∀ marker done left, j.purpose ≠ .formatRewrite marker done left) :
    jobCancellable j = true := by
  unfold jobCancellable
  split
  · exact absurd ‹_› (first _ _ _)
  all_goals rfl

/-- A stream's last reply, CANCELLED, has the payload of a chunk with no data (R42). -/
theorem cancelPayload_eq (st : Stream) :
    chunkPayload st.version st.length st.sent (decide (st.sent = 0)) true [] =
      le 4 st.version ++ le 2 st.length ++
        le 2 (st.sent % 8192 + (if st.sent = 0 then 16384 else 0) + 32768) := by
  rw [chunkPayload_eq, List.append_nil]
  rfl

theorem ArrayOp.requester_unwanted (op : ArrayOp) : op.unwanted.requester = op.requester := by
  cases op <;> rfl

/-- A record without a grant of its own is withdrawn. -/
theorem cancelJob_waiting {s : State} {j : Job}
    (first : ∀ marker done left, j.purpose ≠ .formatRewrite marker done left)
    (other : ∀ g, s.log.grant = some g → g.claimant = .reclaim) :
    cancelJob j s = endJob .cancelled s := by
  unfold cancelJob
  rw [jobCancellable_of_first first]
  cases grant : s.log.grant with
  | none => rfl
  | some g =>
    dsimp only
    rw [other g grant]
    rfl

/-- A record whose OPENED mark is being programmed is withdrawn, its grant abandoned (R53). -/
theorem cancelJob_opening {s : State} {j : Job} {g : Grant} {v : Nat}
    (first : ∀ marker done left, j.purpose ≠ .formatRewrite marker done left)
    (grant : s.log.grant = some g) (own : g.claimant = .engine) (stage : g.stage = .opening v)
    (retry : g.retry = false) (kept : g.abandoned = false) :
    cancelJob j s =
      endJob .cancelled { s with log := { s.log with grant := some { g with abandoned := true } } } := by
  have unplaced : g.unplaced .engine = true := by simp [Grant.unplaced, own, kept, stage]
  have gone : g.giveUp = some { g with abandoned := true } := by simp [Grant.giveUp, stage]
  unfold cancelJob
  rw [if_neg (by simp [jobCancellable_of_first first]), grant]
  dsimp only
  rw [if_pos (by simp [own, kept]), if_pos (by simp [unplaced, retry]), gone]

/-- CANCEL reaches a stream no pass waits for. -/
theorem cancelStream_plain {s : State} {r : Request} {st : Stream}
    (request : s.engine.request = some r) (unbroken : s.engine.breaking = none)
    (other : s.reclaim.state = .pinWait → s.reclaim.victim ≠ some st.loc.seg) :
    cancelStream st s =
      decidedReply r .cancelled
        (chunkPayload st.version st.length st.sent (decide (st.sent = 0)) true [])
        { s with
          ctrl := s.ctrl.unwanted
          log := { s.log with
            segs := s.log.segs.modify st.loc.seg fun e => { e with pin := false } } } := by
  unfold cancelStream
  dsimp only
  rw [releasePin_plain (by exact other), endRequest_decides (r := r) (by exact request)
    (by exact unbroken) (by decide)]
  exact decidedReply_dropStream r _ _
    { s with
      ctrl := s.ctrl.unwanted
      log := { s.log with
        segs := s.log.segs.modify st.loc.seg fun e => { e with pin := false } } }

/-- The state in which CANCEL of a stream whose pin a pass waits for asks for the ERASE mark. -/
def pinReleased (v : Nat) (s : State) : State :=
  { s with
    ctrl := s.ctrl.unwanted
    reclaim := { s.reclaim with state := .erasing }
    log := { s.log with segs := s.log.segs.modify v fun e => { e with pin := false } } }

/-- CANCEL reaches a stream whose pin a pass waits for. -/
theorem cancelStream_erases {s : State} {r : Request} {st : Stream} {c : Controller}
    (request : s.engine.request = some r) (unbroken : s.engine.breaking = none)
    (waits : s.reclaim.state = .pinWait) (victim : s.reclaim.victim = some st.loc.seg)
    (sound : (segAt s.log.segs st.loc.seg).suspect = false)
    (asks : ask (.eraseMark st.loc.seg)
      { pinReleased st.loc.seg s with engine := { s.engine with stream := none } } =
        { pinReleased st.loc.seg s with ctrl := c, engine := { s.engine with stream := none } }) :
    cancelStream st s =
      decidedReply r .cancelled
        (chunkPayload st.version st.length st.sent (decide (st.sent = 0)) true [])
        { pinReleased st.loc.seg s with ctrl := c } := by
  unfold cancelStream
  dsimp only
  rw [releasePin_erases (by exact waits) (by exact victim) (by exact sound)]
  refine (congrArg (endRequest _ _) asks).trans ?_
  rw [endRequest_decides (r := r) (by exact request) (by exact unbroken) (by decide)]
  exact decidedReply_dropStream r _ _ { pinReleased st.loc.seg s with ctrl := c }

theorem Controller.admits_unwanted {c : Controller} {v : Nat} (empty : c.queue = [])
    (unpaused : c.paused = none) (own : ∀ op, c.cur = some op → op.requester = .engine) :
    c.unwanted.admits (.eraseMark v) = true := by
  refine admits_of_none fun o mem => ?_
  simp only [outstanding, unwanted, empty, unpaused, List.map_nil, List.append_nil, Option.map_none,
    Option.toList_none, Option.mem_toList, Option.map_eq_some_iff] at mem
  obtain ⟨op, cur, rfl⟩ := mem
  rw [ArrayOp.requester_unwanted, own op cur]
  nofun

/-- Settles O20: what CANCEL does to each state of the engine, on the state with the queued frames
gone. -/
theorem cancelReachesTheCurrentRequest : Obligations.CancelReachesTheCurrentRequest := by
  refine ⟨fun s r ready request => ⟨fun state => ?_, fun unbroken => ⟨fun state => ?_,
      fun st state stream other => ?_, fun state kind => ?_, fun j busy other job =>
        ⟨fun g loc grant own stage kept => ?_, fun marker done left purpose => ?_, fun first =>
          ⟨fun none_ => ?_, fun g grant own => ?_, fun g v grant own stage retry kept => ?_⟩⟩⟩⟩,
    fun s r st v ready request unbroken state stream waits victim pinned sound empty unpaused =>
      ⟨fun idle => ?_, fun op cur own => ?_⟩⟩
  all_goals rw [exec_cancel_current ready request]; refine congrArg _ ?_
  · exact cancelRequest_replyWait (s := cancelled r.tag s) state
  · exact (cancelRequest_assembling (s := cancelled r.tag s) state).trans
      (endRequest_decides (s := cancelled r.tag s) request unbroken (by decide) [])
  · refine (cancelRequest_streaming (s := cancelled r.tag s) state stream).trans ?_
    rw [← cancelPayload_eq]
    exact cancelStream_plain (s := cancelled r.tag s) request unbroken fun waits victim =>
      other ⟨waits, victim⟩
  · exact cancelRequest_tidy (s := cancelled r.tag s) request state kind
  · exact (cancelRequest_job (s := cancelled r.tag s) request busy other job).trans
      (cancelJob_placed (s := cancelled r.tag s) grant own stage kept)
  · exact (cancelRequest_job (s := cancelled r.tag s) request busy other job).trans
      (cancelJob_later (by rw [jobCancellable, purpose]))
  · refine (cancelRequest_job (s := cancelled r.tag s) request busy other job).trans
      ((cancelJob_waiting (s := cancelled r.tag s) first fun g grant =>
        absurd (grant.symm.trans none_) nofun).trans ?_)
    exact none_ ▸ endJob_withdrawn (s := cancelled r.tag s) request unbroken job first s.log.grant
  · refine (cancelRequest_job (s := cancelled r.tag s) request busy other job).trans
      ((cancelJob_waiting (s := cancelled r.tag s) first fun g' grant' => ?_).trans ?_)
    · cases grant.symm.trans grant'
      exact own
    · exact grant ▸ endJob_withdrawn (s := cancelled r.tag s) request unbroken job first s.log.grant
  · exact (cancelRequest_job (s := cancelled r.tag s) request busy other job).trans
      ((cancelJob_opening (s := cancelled r.tag s) first grant own stage retry kept).trans
        (endJob_withdrawn (s := cancelled r.tag s) request unbroken job first _))
  · subst pinned
    refine (cancelRequest_streaming (s := cancelled r.tag s) state stream).trans ?_
    rw [← cancelPayload_eq]
    refine cancelStream_erases (s := cancelled r.tag s) request unbroken waits victim sound ?_
    rw [ask_idle _ _ (congrArg (Option.map ArrayOp.unwanted) idle)
      (Controller.admits_unwanted empty unpaused fun op cur => absurd (idle.symm.trans cur) nofun)]
    rfl
  · subst pinned
    refine (cancelRequest_streaming (s := cancelled r.tag s) state stream).trans ?_
    rw [← cancelPayload_eq]
    refine cancelStream_erases (s := cancelled r.tag s) request unbroken waits victim sound ?_
    rw [ask_waits _ op.unwanted _ (congrArg (Option.map ArrayOp.unwanted) cur) ?_
      (Controller.admits_unwanted empty unpaused fun op' cur' => Option.some.inj (cur.symm.trans cur') ▸ own)]
    · simp [pinReleased, cancelled, Controller.unwanted, empty]
    · intro v same
      have := op.requester_unwanted
      rw [same, own] at this
      cases this

end Sys2Proof.Machine
end

section
/-!
PROOFS. The requests of the log and of commit groups (R63, R64, R71, R93, R99, R102): O25, O32 to O35.
-/

namespace Sys2Proof.Machine

open Sys2Proof

/-! ## SPACE -/

/-- The pieces of the SPACE reply lie at fixed offsets: every number in it has a fixed width. -/
theorem spacePayload_pieces (s : State) :
    (spacePayload s).length = 47 ∧
      (spacePayload s).take 8 =
        s.log.device.code :: s.reclaim.state.code ::
          ([SegState.erased, .opened, .filled, .reclaiming, .erasing, .retired].map fun st =>
            byteOf (countSegs s.log.segs st)) ∧
      ((spacePayload s).drop 8).take 3 =
        (match headOf s.log.segs with
          | some h => byteOf h
          | none => 0xFF) ::
        le 2 (match headOf s.log.segs with
          | some h => if (segAt s.log.segs h).suspect then 0 else headFree s.log.segs
          | none => 0) ∧
      ((spacePayload s).drop 11).take 12 =
        le 4 ((s.log.segs.map SegEntry.live).sum) ++ le 4 (reclaimable s.log.segs) ++ le 4 s.log.sn ∧
      ((spacePayload s).drop 23).take 8 =
        le 2 (liveTotal s.dir) ++ le 2 (buriedTotal s.dir) ++ le 2 (reservedCount s) ++
          le 2 (freeSlots s) ∧
      (spacePayload s).drop 31 = (List.range 8).flatMap fun n => le 2 (liveCount s.dir n) :=
  ⟨rfl, rfl, rfl, rfl, rfl, rfl⟩

/-- Without an OPEN segment there is no head. -/
theorem headOf_eq_none {segs : List SegEntry} (none_ : ∀ e ∈ segs, e.state ≠ .opened) :
    headOf segs = none :=
  List.findIdx?_eq_none_iff.2 fun e mem => decide_eq_false (none_ e mem)

/-- Settles O25: the emptiness of the payload decides between the two replies, and the reply's pieces
are those of `spacePayload_pieces`. -/
theorem spaceReportsLogAndDirectory : Obligations.SpaceReportsLogAndDirectory := by
  intro s f rest h kind
  have other : f.kind ∉ [kPut, kDelete, kSelect] := by rw [kind]; decide
  obtain ⟨length, counts, head, bytes, totals, lives⟩ := spacePayload_pieces s
  refine ⟨fun form => ?_, fun form => ?_, length, counts, bytes, fun i isHead => ?_, fun none_ => ?_,
    totals, lives⟩
  · rw [take_space h kind, handleSpace, if_pos form]
    exact congrArg _ (refuseForm_startRequest h other)
  · rw [take_space h kind, handleSpace, if_neg (not_not.2 form)]
    exact congrArg _ (endRequest_startRequest h other .ok _)
  · have isHead : headOf s.log.segs = some i := isHead
    rw [head, isHead, headFree, isHead]
    rfl
  · have zero : le 2 0 = [0, 0] := by decide
    rw [head, headOf_eq_none none_]
    exact congrArg (0xFF :: ·) zero

/-! ## A request answered at its take, after changes to the part -/

/-- A frame answered at its take, after changes that leave the request current. -/
theorem endRequest_current {s u : State} {f : Frame}
    (request : u.engine.request = some (requestOf f s)) (idle : u.engine.toIdle = s.engine)
    (unbroken : u.engine.breaking = none) (slot : SlotOpen u) (status : Status) (payload : Bytes)
    (queued : omitted f.kind status s.engine.mode = false) :
    endRequest status payload u =
      replied { kind := f.kind + 0x80, tag := f.tag, status := status, payload := payload }
        { u with engine := s.engine } := by
  rw [endRequest_concludes (r := requestOf f s) slot unbroken request status payload queued, concluded,
    idle]
  rfl

/-! ## BEGIN and DISCARD -/

/-- The group's CURRENT records are dead, one after the other (R102). -/
theorem deadenPending_eq (list : List Pending) (s : State) :
    deadenPending list s = { s with log := { s.log with
      segs := (list.filter fun p => p.standing = .current).foldl
        (fun segs p => deadened p.loc.seg (recordSize p.key.length p.length) segs) s.log.segs } } := by
  induction list generalizing s with
  | nil => rfl
  | cons p rest ih =>
    rw [deadenPending, ih]
    by_cases current : p.standing = .current
    · rw [if_pos current, List.filter_cons_of_pos (by simpa using current)]
      rfl
    · rw [if_neg current, List.filter_cons_of_neg (by simpa using current)]

/-- The walk takes the lowest needed record as the copy in hand and asks for its read. -/
theorem walkStep_asks {s : State} {v : Nat} {c : Copy} (victim : s.reclaim.victim = some v)
    (lowest : lowestNamed v s.reclaim.position s = some c) :
    walkStep s = ask (.copyRead c.loc)
      { s with reclaim := { s.reclaim with copy := some c, position := c.loc.off + c.size } } := by
  unfold walkStep walkStepWith
  rw [victim]
  dsimp only
  rw [lowest]

/-- The grant of a group's copy that has been read and is not placed: abandoned while its OPENED mark is
programmed (R53, R105). -/
theorem decline_of_opening {g : Grant} (opening : g.claimant = .reclaim → ∃ w, g.stage = .opening w) :
    (if g.unplaced .reclaim then g.giveUp else some g) =
      some (if g.claimant = .reclaim then { g with abandoned := true } else g) := by
  by_cases own : g.claimant = .reclaim
  · obtain ⟨w, stage⟩ := opening own
    cases kept : g.abandoned with
    | false => simp [Grant.unplaced, Grant.giveUp, own, stage, kept]
    | true =>
      have withdrawn : g.unplaced .reclaim = false := by simp [Grant.unplaced, kept]
      rw [withdrawn, if_neg Bool.false_ne_true, if_pos own, ← kept]
  · simp [Grant.unplaced, own]

/-- A group's copy that has been read is declined, and the walk goes on (R105). -/
theorem declineGroupCopy_read {s : State} {c : Copy} {x : Record} (read : c.buffer = some x)
    (opening : ∀ g, s.log.grant = some g → g.claimant = .reclaim → ∃ w, g.stage = .opening w) :
    declineGroupCopy c s = walkStep { s with
      log := { s.log with
        grant := s.log.grant.map fun g =>
          if g.claimant = .reclaim then { g with abandoned := true } else g
        copyWaits := false }
      reclaim := { s.reclaim with copy := none } } := by
  rw [declineGroupCopy, if_neg (by rw [read]; nofun)]
  cases grant : s.log.grant with
  | none => rfl
  | some g =>
    dsimp only
    rw [decline_of_opening (opening g grant)]
    rfl

/-- A controller working for the log manager admits a request of the reclaim unit. -/
theorem admits_reclaim {c : Controller} {op cur : ArrayOp} (busy : c.cur = some cur)
    (own : cur.requester = .logManager) (empty : c.queue = []) (unpaused : c.paused = none)
    (asker : op.requester = .reclaim) : c.admits op = true := by
  refine admits_of_none fun o mem => ?_
  simp only [Controller.outstanding, busy, empty, unpaused, Option.toList_some, Option.map_none,
    Option.toList_none, List.append_nil, List.mem_singleton] at mem
  rw [mem, own, asker]
  nofun

/-- The answer to a DISCARD that drops a group, and the copy it may still have to decline (R102). -/
theorem exec_discard_of_group {s : State} {f : Frame} {rest : List Frame} (h : AtTake s f rest)
    (kind : f.kind = kDiscard) (form : f.payload = []) (group : s.group.state ≠ .noGroup) :
    exec .discard s = .next
      (let t := answered f rest .ok [byteOf s.group.list.length]
        { s with
          group := Group.reset
          log := { s.log with
            segs := (s.group.list.filter fun p => p.standing = .current).foldl
              (fun segs p => deadened p.loc.seg (recordSize p.key.length p.length) segs)
              s.log.segs } }
      match groupCopy s with
      | some c => declineGroupCopy c t
      | none => t) := by
  have inside : inGroup { s with inbound := rest } = true := decide_eq_true group
  have reply := endRequest_answers
    (s₁ := dropGroup (startRequest f { s with inbound := rest })) h
    (by rw [dropGroup, deadenPending_eq]; rfl) (by rw [dropGroup, deadenPending_eq]; rfl)
    (by rw [dropGroup, deadenPending_eq]; rfl) .ok [byteOf s.group.list.length]
    (omitted_eq_false (by rw [kind]; decide) _ _)
  rw [take_discard h kind, handleDiscard, if_neg (not_not.2 form), if_pos inside]
  dsimp only
  rw [reply, dropGroup, deadenPending_eq]
  rfl

/-- Settles O32: BEGIN's checks in order; DISCARD's answer, and what `declineGroupCopy` does with a copy
of the group's. -/
theorem beginOpensAndDiscardDropsAGroup : Obligations.BeginOpensAndDiscardDropsAGroup := by
  refine ⟨fun s f rest h kind => ?_, fun s f rest h kind => ⟨fun form => ?_, fun form none_ => ?_,
      fun form group => ⟨fun placed => ?_, fun c copy own unplaced unread => ?_⟩⟩,
    fun s f rest c x v op h kind form group copy own unplaced read victim opening cur asker empty
      unpaused d lowest => ?_⟩
  · have other : f.kind ∉ [kPut, kDelete, kSelect] := by rw [kind]; decide
    rw [take_begin h kind, handleBegin]
    refine congrArg _ ?_
    simp only [inGroup, decide_eq_true_eq]
    split_ifs
    · exact refuseForm_startRequest h other
    · exact endRequest_startRequest h other _ _
    · exact endRequest_startRequest h other _ _
    · exact endRequest_answers (s₁ := { startRequest f { s with inbound := rest } with
        group := { s.group with state := .opened, firstSn := some s.log.sn } }) h rfl rfl rfl .ok _
        (omitted_eq_false other _ _)
  · rw [take_discard h kind, handleDiscard, if_pos form]
    exact congrArg _ (refuseForm_startRequest h (by rw [kind]; decide))
  · have outside : inGroup { s with inbound := rest } ≠ true := by simp [inGroup, none_]
    rw [take_discard h kind, handleDiscard, if_neg (not_not.2 form), if_neg outside]
    exact congrArg _ (endRequest_startRequest h (by rw [kind]; decide) _ _)
  · have none_ : groupCopy s = none := by
      unfold groupCopy
      split
      · exact if_neg fun both => placed _ ‹_› both.1 both.2
      · rfl
    rw [exec_discard_of_group h kind form group, none_]
    rfl
  · have some_ : groupCopy s = some c := by
      rw [groupCopy, copy]
      exact if_pos ⟨own, unplaced⟩
    rw [exec_discard_of_group h kind form group, some_]
    refine congrArg _ ?_
    dsimp only
    rw [declineGroupCopy, if_pos unread]
    rfl
  · have some_ : groupCopy s = some c := by
      rw [groupCopy, copy]
      exact if_pos ⟨own, unplaced⟩
    rw [exec_discard_of_group h kind form group, some_]
    refine congrArg _ ?_
    dsimp only
    rw [declineGroupCopy_read read (by exact opening),
      walkStep_asks (v := v) (c := d) (by exact victim) (by exact lowest),
      ask_waits _ op _ (by exact cur) (fun v same => by rw [same] at asker; cases asker)
        (admits_reclaim (by exact cur) asker (by exact empty) (by exact unpaused) rfl)]
    dsimp only [answered, replied]
    rw [empty]
    rfl

/-! ## COMMIT -/

/-- What makes a record placed at once does not change when a frame is taken. -/
theorem PlacesAtOnce.taken {s : State} {head size : Nat} (h : PlacesAtOnce s head size) (f : Frame)
    (rest : List Frame) : PlacesAtOnce (startRequest f { s with inbound := rest }) head size :=
  ⟨h.ready, h.free, h.isHead, h.sound, h.fits, h.idle, h.empty, h.more⟩

/-- A frame taken whose record is handed over and placed at once. -/
theorem handOver_taken {s : State} {f : Frame} {rest : List Frame} {j : Job} {head : Nat}
    (h : PlacesAtOnce s head j.record.size) (whole : commitLost j s = false) :
    handOver j (startRequest f { s with inbound := rest }) = takenAndPlaced f rest j head s :=
  handOver_places (h.taken f rest) whole

/-- Settles O33: the checks are `handleCommit`'s, in their order; the marker has 24 bytes. -/
theorem commitIsCheckedThenPlaced : Obligations.CommitIsCheckedThenPlaced := by
  intro s f rest h kind
  have other : f.kind ∉ [kPut, kDelete, kSelect] := by rw [kind]; decide
  refine ⟨fun form => ?_, fun form => ⟨fun readOnly => ?_, fun ready => ⟨fun none_ => ?_,
    fun failed => ?_, fun opened empty => ?_, fun first head opened some_ firstSn places => ?_⟩⟩⟩
  all_goals rw [take_commit h kind, handleCommit]; refine congrArg _ ?_; dsimp only
  · rw [if_pos form]
    exact refuseForm_startRequest h other
  · rw [if_neg (not_not.2 form), if_pos readOnly]
    exact endRequest_startRequest h other _ _
  all_goals rw [if_neg (not_not.2 form), if_neg (by rw [ready]; nofun)]
  · rw [none_]
    exact endRequest_startRequest h other _ _
  · rw [failed]
    exact endRequest_startRequest h other _ _
  · rw [opened]
    dsimp only
    rw [if_pos (by rw [empty]; rfl)]
    exact endRequest_answers (s₁ := { startRequest f { s with inbound := rest } with
      group := Group.reset }) h rfl rfl rfl .ok _ (omitted_eq_false other _ _)
  · rw [opened]
    dsimp only
    rw [if_neg (by simpa using some_), firstSn]
    have size : (newRecord .commit 0 false [] (le 4 first)).size = 24 := by
      simp [Record.size, newRecord, recordSize, roundUp4, le, Config.headerBytes]
    exact handOver_taken (size ▸ places) (by simp [commitLost, opened])

/-! ## FORMAT -/

/-- Settles O35: the checks are `formatRefusal`'s, in their order; the marker has 20 bytes. -/
theorem formatIsCheckedThenPlaced : Obligations.FormatIsCheckedThenPlaced := by
  intro s f rest h kind refusal
  have other : f.kind ∉ [kPut, kDelete, kSelect] := by rw [kind]; decide
  have judged : refusal = if f.payload ≠ [] then some .badRequest else formatRefusal s := by
    simp [refusal, formatRefusal, inGroup, writeLockedMask]
  rw [judged, take_format h kind, handleFormat]
  refine ⟨fun status refused => congrArg _ ?_, fun head passes places => congrArg _ ?_⟩
  · split_ifs at refused ⊢
    · cases refused
      exact refuseForm_startRequest h other
    · have same : formatRefusal { s with inbound := rest } = formatRefusal s := rfl
      rw [same, refused]
      exact endRequest_startRequest h other _ _
  · split_ifs at passes ⊢
    have same : formatRefusal { s with inbound := rest } = formatRefusal s := rfl
    rw [same, passes]
    exact handOver_taken places rfl

end Sys2Proof.Machine
end

section
/-!
PROOFS. TIDY and the choice of a segment by least measure (R71 to R73), and the requests that change
stored settings (R10, R136, R140, R141, R144): O34 and O36.
-/

namespace Sys2Proof.Machine

open Sys2Proof

/-! ## A segment of least measure -/

/-- What `leastSeg` has chosen after the first `n` segments. -/
def leastBelow (segs : List SegEntry) (p : SegEntry → Bool) (measure : SegEntry → Nat) (n : Nat) :
    Option Nat :=
  (List.range n).foldl
    (fun best i =>
      if p (segAt segs i) then
        match best with
        | some b => if measure (segAt segs i) < measure (segAt segs b) then some i else some b
        | none => some i
      else best)
    none

theorem leastSeg_eq (segs : List SegEntry) (p : SegEntry → Bool) (measure : SegEntry → Nat) :
    leastSeg segs p measure = leastBelow segs p measure segs.length := rfl

theorem leastBelow_succ (segs : List SegEntry) (p : SegEntry → Bool) (measure : SegEntry → Nat)
    (n : Nat) :
    leastBelow segs p measure (n + 1) =
      if p (segAt segs n) then
        match leastBelow segs p measure n with
        | some b => if measure (segAt segs n) < measure (segAt segs b) then some n else some b
        | none => some n
      else leastBelow segs p measure n := by
  simp only [leastBelow, List.range_succ, List.foldl_append, List.foldl_cons, List.foldl_nil]

/-- Segment `v` is the first of least measure among the candidates below `n`. -/
structure LeastBelow (segs : List SegEntry) (p : SegEntry → Bool) (measure : SegEntry → Nat) (n : Nat)
    (v : Nat) : Prop where
  below : v < n
  candidate : p (segAt segs v) = true
  least : ∀ i, i < n → p (segAt segs i) = true → measure (segAt segs v) ≤ measure (segAt segs i)
  first : ∀ i, i < v → p (segAt segs i) = true → measure (segAt segs v) < measure (segAt segs i)

theorem leastBelow_spec {segs : List SegEntry} {p : SegEntry → Bool} {measure : SegEntry → Nat}
    (n : Nat) :
    (∀ v, leastBelow segs p measure n = some v → LeastBelow segs p measure n v) ∧
      (leastBelow segs p measure n = none → ∀ i, i < n → p (segAt segs i) = false) := by
  induction n with
  | zero => exact ⟨nofun, fun _ i below => absurd below (Nat.not_lt_zero i)⟩
  | succ n ih =>
    obtain ⟨chosen, nothing⟩ := ih
    rw [leastBelow_succ]
    by_cases candidate : p (segAt segs n) = true
    · rw [if_pos candidate]
      cases best : leastBelow segs p measure n with
      | none =>
        have none_ := nothing best
        refine ⟨fun v same => ?_, nofun⟩
        cases same
        exact ⟨Nat.lt_succ_self _, candidate, fun i below also => by
          rcases Nat.lt_succ_iff_lt_or_eq.1 below with lower | rfl
          · exact absurd also (by rw [none_ i lower]; nofun)
          · exact le_rfl, fun i lower also => absurd also (by rw [none_ i lower]; nofun)⟩
      | some b =>
        obtain ⟨below, good, least, first⟩ := chosen b best
        dsimp only
        split_ifs with less
        · refine ⟨fun v same => ?_, nofun⟩
          cases same
          refine ⟨Nat.lt_succ_self _, candidate, fun i lower also => ?_, fun i lower also =>
            less.trans_le (least i lower also)⟩
          rcases Nat.lt_succ_iff_lt_or_eq.1 lower with lower | rfl
          · exact less.le.trans (least i lower also)
          · exact le_rfl
        · refine ⟨fun v same => ?_, nofun⟩
          cases same
          refine ⟨below.trans (Nat.lt_succ_self _), good, fun i lower also => ?_, first⟩
          rcases Nat.lt_succ_iff_lt_or_eq.1 lower with lower | rfl
          · exact least i lower also
          · exact not_lt.1 less
    · rw [if_neg candidate]
      refine ⟨fun v best => ?_, fun best i lower => ?_⟩
      · obtain ⟨below, good, least, first⟩ := chosen v best
        refine ⟨below.trans (Nat.lt_succ_self _), good, fun i lower also => ?_, first⟩
        rcases Nat.lt_succ_iff_lt_or_eq.1 lower with lower | rfl
        · exact least i lower also
        · exact absurd also candidate
      · rcases Nat.lt_succ_iff_lt_or_eq.1 lower with lower | rfl
        · exact nothing best i lower
        · exact Bool.eq_false_iff.2 candidate

/-- The segment chosen is the first of least measure among the candidates. -/
theorem leastSeg_spec {segs : List SegEntry} {p : SegEntry → Bool} {measure : SegEntry → Nat} {v : Nat}
    (chosen : leastSeg segs p measure = some v) : LeastBelow segs p measure segs.length v :=
  (leastBelow_spec segs.length).1 v chosen

/-! ## TIDY -/

/-- TIDY admits a number of passes from 1 to 64 (R71). -/
theorem parseTidy_eq_none {payload : Bytes}
    (malformed : ¬ ∃ n : Byte, payload = [n] ∧ 1 ≤ n.toNat ∧ n.toNat ≤ 64) : parseTidy payload = none := by
  match payload with
  | [] | _ :: _ :: _ => rfl
  | [n] => exact if_neg fun bounds => malformed ⟨n, rfl, bounds.1, bounds.2⟩

theorem parseTidy_of_le {n : Byte} (least : 1 ≤ n.toNat) (most : n.toNat ≤ 64) :
    parseTidy [n] = some n.toNat := if_pos ⟨least, most⟩

/-- The state after a TIDY has asked for its passes (R71). -/
def tidyAsked (f : Frame) (rest : List Frame) (n : Nat) (s : State) : State :=
  { s with
    inbound := rest
    engine := { s.engine with state := .busy, request := some (requestOf f s) }
    reclaim := { s.reclaim with
      tidyRemaining := n, tidyDone := 0, tidyFreed := 0, tidyCancelled := false } }

theorem exec_tidy_of_form {s : State} {f : Frame} {rest : List Frame} {n : Byte}
    (h : AtTake s f rest) (kind : f.kind = kTidy) (form : f.payload = [n]) (least : 1 ≤ n.toNat)
    (most : n.toNat ≤ 64) (ready : s.log.device = .ready) :
    exec .tidy s = .next
      (if s.reclaim.state = .idle ∧ !anyFilled s then endTidy (tidyAsked f rest n.toNat s)
      else weighPass (tidyAsked f rest n.toNat s)) := by
  rw [take_tidy h kind, handleTidy, form, parseTidy_of_le least most]
  dsimp only
  rw [if_neg (by rw [ready]; nofun)]
  rfl

/-- With nothing to reclaim a TIDY ends at once (R88). -/
theorem endTidy_asked {s : State} {f : Frame} {rest : List Frame} {n : Nat} (h : AtTake s f rest)
    (kind : f.kind = kTidy) (ready : s.log.device = .ready) :
    endTidy (tidyAsked f rest n s) = answered f rest .ok [0, 0, 0, 0, 0] { s with
      reclaim := { s.reclaim with
        tidyRemaining := 0, tidyDone := 0, tidyFreed := 0, tidyCancelled := false } } := by
  have runs : tidyRunning (tidyAsked f rest n s) = true := by
    simp [tidyRunning, tidyAsked, requestOf, kind]
  have totals : tidyTotals 0 0 = [0, 0, 0, 0, 0] := by decide
  rw [endTidy, if_pos runs]
  dsimp only [tidyAsked]
  simp only [Bool.false_eq_true, if_false, ready, reduceCtorEq, totals]
  exact endRequest_current (u := { tidyAsked f rest n s with
      reclaim := { (tidyAsked f rest n s).reclaim with tidyRemaining := 0 } }) rfl h.idle
    (breaking_of_rest (e := s.engine) h.idle) ⟨h.slot, h.quiet⟩ .ok _
    (omitted_eq_false (by rw [kind]; decide) _ _)

theorem anyFilled_eq_false {s : State} (none_ : ∀ e ∈ s.log.segs, e.state ≠ .filled) :
    anyFilled s = false := by
  have count : countSegs s.log.segs .filled = 0 := by
    rw [countSegs, List.length_eq_zero_iff, List.filter_eq_nil_iff]
    exact fun e mem => by simpa using none_ e mem
  simp [anyFilled, count]

/-- Settles O34: TIDY's refusals, the two ends of its if, and the victim's measure, its open stamp. -/
theorem tidyAsksForPasses : Obligations.TidyAsksForPasses := by
  refine ⟨fun s f rest h kind => ⟨fun malformed => ?_, fun n form least most => ⟨fun readOnly => ?_,
      fun ready => ⟨fun idle none_ => ?_, fun busy => ?_,
        fun v idle victim filled unmarked rests empty unpaused => ?_⟩⟩⟩,
    fun segs v chosen => ?_⟩
  · rw [take_tidy h kind, handleTidy, parseTidy_eq_none malformed]
    exact congrArg _ (refuseForm_startRequest h (by rw [kind]; decide))
  · have totals : tidyTotals 0 0 = [0, 0, 0, 0, 0] := by decide
    rw [take_tidy h kind, handleTidy, form, parseTidy_of_le least most]
    dsimp only
    rw [if_pos readOnly, totals]
    exact congrArg _ (endRequest_startRequest h (by rw [kind]; decide) _ _)
  · rw [exec_tidy_of_form h kind form least most ready,
      if_pos ⟨idle, by rw [anyFilled_eq_false none_]; rfl⟩, endTidy_asked h kind ready]
  · rw [exec_tidy_of_form h kind form least most ready, if_neg fun both => busy both.1,
      weighPass_busy (by exact busy)]
    rfl
  · rw [exec_tidy_of_form h kind form least most ready,
      if_neg fun both => by rw [anyFilled_of_victim victim] at both; exact absurd both.2 nofun,
      weighPass_begins (s := tidyAsked f rest n.toNat s) (w := v) (by exact idle) (by exact ready)
        (.inr (.inl (Nat.lt_of_lt_of_le Nat.zero_lt_one least))) ⟨victim, unmarked⟩,
      ask_idle _ _ (by exact rests)
        (admits_idle _ (by exact rests) (by exact empty) (.inr (by exact unpaused)))]
    rfl
  · obtain ⟨below, filled, oldest, -⟩ := leastSeg_spec chosen
    refine ⟨below, of_decide_eq_true filled, fun w a b inside also stamp other => ?_⟩
    have := oldest w inside (decide_eq_true also)
    rwa [stamp, other] at this

/-! ## The requests that change stored settings -/

theorem byteOf_low (l0 l1 : Byte) : byteOf (l0.toNat + 256 * l1.toNat) = l0 := by
  refine BitVec.eq_of_toNat_eq ?_
  have := l0.isLt
  simp only [byteOf, BitVec.toNat_ofNat]
  omega

theorem le_two_bytes (l0 l1 : Byte) : le 2 (l0.toNat + 256 * l1.toNat) = [l0, l1] := by
  have high : (l0.toNat + 256 * l1.toNat) / 256 = l1.toNat := by
    have := l0.isLt
    omega
  change [byteOf _, byteOf (_ / 256)] = _
  rw [high, byteOf_low, byteOf_toNat]

theorem leNat_two (l0 l1 : Byte) : leNat [l0, l1] = l0.toNat + 256 * l1.toNat := by
  simp [leNat]

theorem idLimit_toNat (n : Byte) : idLimit n.toNat = 0x10 + n := by
  refine BitVec.eq_of_toNat_eq ?_
  simp [idLimit, byteOf]

theorem parseSetLimit_of_le {n l0 l1 : Byte} (ns : n.toNat ≤ 7) (limit : l0.toNat + 256 * l1.toNat ≤ 1024) :
    parseSetLimit [n, l0, l1] = some (n.toNat, l0.toNat + 256 * l1.toNat) := by
  rw [← leNat_two] at limit ⊢
  exact if_pos ⟨Nat.lt_succ_of_le ns, limit⟩

theorem parseFinal_of_le {b : Byte} (least : 1 ≤ b.toNat) (most : b.toNat ≤ 3) :
    parseFinal [b] = some b := if_pos ⟨least, most⟩

/-- A well-formed request for a settings write goes on to the checks (R10, R136, R140, R141, R144). -/
theorem exec_setting {s : State} {f : Frame} {rest : List Frame} {c : Instr} {kind id : Byte}
    {payload value : Bytes} {own : Prop} (h : AtTake s f rest)
    (asks : AsksSetting s c kind payload id value own) (kinds : f.kind = kind)
    (form : f.payload = payload) :
    ∃ b : Bool, (b = true ↔ own) ∧
      exec c s = .next (settingRequest b id value (startRequest f { s with inbound := rest })) := by
  cases asks with
  | setLimit n l0 l1 ns limit =>
    refine ⟨false, by simp, ?_⟩
    rw [take_setLimit h kinds, handleSetLimit, form, parseSetLimit_of_le ns limit]
    dsimp only
    rw [idLimit_toNat, le_two_bytes]
  | persistSet mask =>
    refine ⟨locksFinal s, Iff.rfl, ?_⟩
    rw [take_persist h kinds, handlePersist, form]
    rfl
  | persistClear mask =>
    refine ⟨locksFinal s, Iff.rfl, ?_⟩
    rw [take_persist h kinds, handlePersist, form]
    rfl
  | setPassphrase _ length =>
    refine ⟨decide (policyOf s.prot.settings ≠ .unset), decide_eq_true_iff, ?_⟩
    rw [take_setPassphrase h kinds, handleSetPassphrase, form, parsePassphrase, if_pos length]
    rfl
  | setPlain =>
    refine ⟨decide (policyOf s.prot.settings ≠ .unset ∨
      (Policy.plain = .passphrase ∧ passphraseOf s = none)), by simp, ?_⟩
    rw [take_setPolicy h kinds, handleSetPolicy, form]
    rfl
  | setProtected =>
    refine ⟨decide (policyOf s.prot.settings ≠ .unset ∨
      (Policy.passphrase = .passphrase ∧ passphraseOf s = none)), by simp, ?_⟩
    rw [take_setPolicy h kinds, handleSetPolicy, form]
    rfl
  | finalize switches least most =>
    refine ⟨false, by simp, ?_⟩
    rw [take_finalize h kinds, handleFinalize, form, parseFinal_of_le least most]
    rfl

/-! ## Malformed settings requests -/

theorem parseSetLimit_eq_none {payload : Bytes}
    (malformed : ¬ ∃ n l0 l1 : Byte, payload = [n, l0, l1] ∧ n.toNat ≤ 7 ∧
      l0.toNat + 256 * l1.toNat ≤ 1024) : parseSetLimit payload = none := by
  match payload with
  | [] | [_] | [_, _] | _ :: _ :: _ :: _ :: _ => rfl
  | [n, l0, l1] =>
    refine if_neg fun bounds => malformed ⟨n, l0, l1, rfl, Nat.le_of_lt_succ bounds.1, ?_⟩
    rw [← leNat_two]
    exact bounds.2

theorem parsePolicy_eq_none {payload : Bytes} (plain : payload ≠ [0x01]) (protected_ : payload ≠ [0x02]) :
    parsePolicy payload = none := by
  match payload with
  | [] | _ :: _ :: _ => rfl
  | [p] =>
    rw [parsePolicy, if_neg fun same => plain (by rw [same]), if_neg fun same => protected_ (by rw [same])]

theorem parseFinal_eq_none {payload : Bytes}
    (malformed : ¬ ∃ b : Byte, payload = [b] ∧ 1 ≤ b.toNat ∧ b.toNat ≤ 3) : parseFinal payload = none := by
  match payload with
  | [] | _ :: _ :: _ => rfl
  | [b] => exact if_neg fun bounds => malformed ⟨b, rfl, bounds.1, bounds.2⟩

/-- A malformed request for a settings write is refused. -/
theorem exec_setting_malformed {s : State} {f : Frame} {rest : List Frame} {c : Instr} {kind : Byte}
    (h : AtTake s f rest) (mem : (c, kind) ∈ settingRequests) (kinds : f.kind = kind)
    (malformed : ¬ ∃ id value own, AsksSetting s c kind f.payload id value own) :
    exec c s = .next (answered f rest .badRequest [] s) := by
  have only {p value : Bytes} {id : Byte} {own : Prop} (form : f.payload = p)
      (asks : AsksSetting s c kind p id value own) : False :=
    malformed ⟨id, value, own, form ▸ asks⟩
  simp only [settingRequests, List.mem_cons, Prod.mk.injEq, List.not_mem_nil, or_false] at mem
  rcases mem with ⟨rfl, rfl⟩ | ⟨rfl, rfl⟩ | ⟨rfl, rfl⟩ | ⟨rfl, rfl⟩ | ⟨rfl, rfl⟩
  · have none_ : parseSetLimit f.payload = none := parseSetLimit_eq_none fun ⟨n, l0, l1, form, ns, limit⟩ =>
      only form (AsksSetting.setLimit n l0 l1 ns limit)
    rw [take_setLimit h kinds, handleSetLimit, none_]
    exact congrArg _ (refuseForm_startRequest h (by rw [kinds]; decide))
  · have none_ : parseMaskAction f.payload = none :=
      parseMaskAction_eq_none fun ⟨mask, action, form, most⟩ => by
        obtain rfl | rfl := action_cases most
        · exact only form (AsksSetting.persistClear mask)
        · exact only form (AsksSetting.persistSet mask)
    rw [take_persist h kinds, handlePersist, none_]
    exact congrArg _ (refuseForm_startRequest h (by rw [kinds]; decide))
  · have none_ : parsePassphrase f.payload = none := if_neg fun length =>
      only rfl (AsksSetting.setPassphrase f.payload length)
    rw [take_setPassphrase h kinds, handleSetPassphrase, none_]
    exact congrArg _ (refuseForm_startRequest h (by rw [kinds]; decide))
  · have none_ : parsePolicy f.payload = none := parsePolicy_eq_none
      (fun form => only form (AsksSetting.setPlain))
      (fun form => only form (AsksSetting.setProtected))
    rw [take_setPolicy h kinds, handleSetPolicy, none_]
    exact congrArg _ (refuseForm_startRequest h (by rw [kinds]; decide))
  · have none_ : parseFinal f.payload = none := parseFinal_eq_none fun ⟨b, form, least, most⟩ =>
      only form (AsksSetting.finalize b least most)
    rw [take_finalize h kinds, handleFinalize, none_]
    exact congrArg _ (refuseForm_startRequest h (by rw [kinds]; decide))

/-! ## The checks of the settings requests -/

/-- A settings request is none of those whose OK reply QUIET mode omits. -/
theorem AsksSetting.replies {s : State} {c : Instr} {kind id : Byte} {payload value : Bytes} {own : Prop}
    (asks : AsksSetting s c kind payload id value own) : kind ∉ [kPut, kDelete, kSelect] := by
  cases asks <;> decide

theorem settingRequest_refused {s : State} {f : Frame} {rest : List Frame} (h : AtTake s f rest)
    (other : f.kind ∉ [kPut, kDelete, kSelect]) {own : Bool} {id : Byte} {value : Bytes}
    {status : Status} (refused : settingRefusal s = some status) :
    settingRequest own id value (startRequest f { s with inbound := rest }) =
      answered f rest status [] s := by
  have same : settingRefusal (startRequest f { s with inbound := rest }) = some status := refused
  rw [settingRequest, same]
  exact endRequest_startRequest h other _ _

theorem settingRefusal_passes {s : State} (ready : s.log.device = .ready)
    (alone : s.group.state = .noGroup) (gate : s.prot.gateOpen = true) : settingRefusal s = none := by
  simp [settingRefusal, ready, inGroup, alone, gate]

/-- Settles O36: each form leads to `settingRequest`, whose checks refuse in order; a record that passes
is placed. -/
theorem settingRequestsAreCheckedThenPlaced : Obligations.SettingRequestsAreCheckedThenPlaced := by
  refine ⟨fun s f rest h => ⟨fun c kind mem kinds => exec_setting_malformed h mem kinds,
      fun c kind payload id value own asks kinds form => ?_⟩,
    fun s f rest c kind payload id value own head h asks kinds form unrefused alone gate places => ?_⟩
  · obtain ⟨b, judged, next⟩ := exec_setting h asks kinds form
    have other : f.kind ∉ [kPut, kDelete, kSelect] := kinds ▸ asks.replies
    rw [next]
    refine ⟨fun readOnly => ?_, fun ready group => ?_, fun ready alone closed => ?_,
      fun ready alone gate refused => ?_⟩ <;> refine congrArg _ ?_
    · exact settingRequest_refused h other (if_pos readOnly)
    · exact settingRequest_refused h other (by simp [settingRefusal, ready, inGroup, group])
    · exact settingRequest_refused h other (by simp [settingRefusal, ready, inGroup, alone, closed])
    · have passes : settingRefusal (startRequest f { s with inbound := rest }) = none :=
        settingRefusal_passes (s := s) ready alone gate
      rw [settingRequest, passes]
      dsimp only
      rw [if_pos (judged.2 refused)]
      exact endRequest_startRequest h other _ _
  · obtain ⟨b, judged, next⟩ := exec_setting h asks kinds form
    have passes : settingRefusal (startRequest f { s with inbound := rest }) = none :=
      settingRefusal_passes (s := s) places.ready alone gate
    rw [next, settingRequest, passes]
    dsimp only
    rw [if_neg fun b => unrefused (judged.1 b)]
    exact congrArg _ (handOver_taken places rfl)

end Sys2Proof.Machine
end

section
/-!
PROOFS. PUT, DELETE and GET at their take (R20, R21, R27, R28, R31, R33): O37 to O39, O43, O44.
-/

namespace Sys2Proof.Machine

open Sys2Proof

/-! ## The forms admitted -/

/-- The conditions a PUT can carry, by their code (R20). -/
theorem conditionOf_eq_some_iff (code : Byte) (expected : Nat) (condition : Condition) :
    conditionOf code expected = some condition ↔
      (code = 0x00 ∧ condition = .always) ∨ (code = 0x01 ∧ condition = .ifAbsent) ∨
        (code = 0x02 ∧ expected ≠ 0 ∧ condition = .ifVersion expected) := by
  unfold conditionOf
  split_ifs with always absent version zero
  · simp [always, eq_comm]
  · simp [absent, eq_comm]
  · simp [version, zero]
  · simp [version, zero, eq_comm]
  · refine iff_of_false nofun ?_
    rintro (⟨code, -⟩ | ⟨code, -⟩ | ⟨code, -⟩)
    exacts [always code, absent code, version code]

/-- The parser of PUT admits exactly the well-formed payloads (R20). -/
theorem parsePut_eq_some_iff (payload : Bytes) (form : PutForm) (inlineBytes : Bytes) :
    parsePut payload = some (form, inlineBytes) ↔ IsPut payload form inlineBytes := by
  constructor
  · intro parsed
    match payload with
    | k :: c :: t0 :: t1 :: e0 :: e1 :: e2 :: e3 :: rest =>
      rw [parsePut] at parsed
      split at parsed
      · cases parsed
      · rename_i condition code
        rw [Option.ite_none_right_eq_some] at parsed
        obtain ⟨⟨length, within, most, short⟩, same⟩ := parsed
        obtain ⟨rfl, rfl⟩ := Prod.mk.inj (Option.some.inj same)
        rw [keyLengthOk_iff] at length
        have keyLength : (rest.take k.toNat).length = k.toNat := List.length_take_of_le within
        refine ⟨c, t0, t1, e0, e1, e2, e3, ?_, ?_, ?_, leNat_two t0 t1, most, short, ?_⟩
        · rw [keyLength, List.take_append_drop]
          exact congrArg (· :: _) (byteOf_toNat k).symm
        · exact keyLength.symm ▸ length.1
        · exact keyLength.symm ▸ length.2
        · rcases (conditionOf_eq_some_iff _ _ _).1 code with always | absent | ⟨version, some_, is⟩
          · exact .inl always
          · exact .inr (.inl absent)
          · exact .inr (.inr ⟨version, some_, is⟩)
    | [] | [_] | [_, _] | [_, _, _] | [_, _, _, _] | [_, _, _, _, _] | [_, _, _, _, _, _]
    | [_, _, _, _, _, _, _] => cases parsed
  · rintro ⟨code, t0, t1, e0, e1, e2, e3, rfl, least, most, total, within, short, condition⟩
    have length : (BitVec.ofNat 8 form.key.length).toNat = form.key.length := by
      rw [BitVec.toNat_ofNat, Nat.mod_eq_of_lt (by omega)]
    have judged : conditionOf code (leNat [e0, e1, e2, e3]) = some form.condition := by
      rw [conditionOf_eq_some_iff]
      rcases condition with always | absent | version
      · exact .inl always
      · exact .inr (.inl absent)
      · exact .inr (.inr version)
    rw [parsePut, judged, length]
    dsimp only
    rw [if_pos ⟨(keyLengthOk_iff _).2 ⟨least, most⟩, by simp, by rw [leNat_two, ← total]; exact within,
      by rw [List.drop_left, leNat_two, ← total]; exact short⟩, List.drop_left, List.take_left,
      leNat_two, ← total]

theorem parsePut_eq_none {payload : Bytes} (malformed : ¬ ∃ form inlineBytes, IsPut payload form inlineBytes) :
    parsePut payload = none := by
  cases parsed : parsePut payload with
  | none => rfl
  | some pair => exact absurd ⟨pair.1, pair.2, (parsePut_eq_some_iff _ _ _).1 parsed⟩ malformed

/-- The parser of DELETE admits exactly the well-formed payloads (R31). -/
theorem parseDelete_eq_some_iff (payload key : Bytes) (expected : Nat) :
    parseDelete payload = some (expected, key) ↔ IsDelete payload key expected := by
  constructor
  · intro parsed
    match payload with
    | k :: e0 :: e1 :: e2 :: e3 :: rest =>
      rw [parseDelete, Option.ite_none_right_eq_some] at parsed
      obtain ⟨⟨length, same⟩, pair⟩ := parsed
      obtain ⟨rfl, rfl⟩ := Prod.mk.inj (Option.some.inj pair)
      rw [keyLengthOk_iff, ← same] at length
      refine ⟨e0, e1, e2, e3, ?_, length.1, length.2, rfl⟩
      rw [same]
      exact congrArg (· :: _) (byteOf_toNat k).symm
    | [] | [_] | [_, _] | [_, _, _] | [_, _, _, _] => cases parsed
  · rintro ⟨e0, e1, e2, e3, rfl, least, most, rfl⟩
    have length : (BitVec.ofNat 8 key.length).toNat = key.length := by
      rw [BitVec.toNat_ofNat, Nat.mod_eq_of_lt (by omega)]
    rw [parseDelete, length, if_pos ⟨(keyLengthOk_iff _).2 ⟨least, most⟩, rfl⟩]

theorem parseDelete_eq_none {payload : Bytes}
    (malformed : ¬ ∃ key expected, IsDelete payload key expected) : parseDelete payload = none := by
  cases parsed : parseDelete payload with
  | none => rfl
  | some pair => exact absurd ⟨pair.2, pair.1, (parseDelete_eq_some_iff _ _ _).1 parsed⟩ malformed

/-! ## Refusals at the take -/

/-- A frame refused at its take. -/
theorem endRequest_refused {s : State} {f : Frame} {rest : List Frame} (h : AtTake s f rest)
    {status : Status} (refused : status ≠ .ok) (payload : Bytes) :
    endRequest status payload (startRequest f { s with inbound := rest }) =
      answered f rest status payload s :=
  endRequest_answers (s₁ := startRequest f { s with inbound := rest }) h rfl rfl rfl status payload
    (omitted_of_ne_ok _ refused _)

/-- A frame refused at its take, with its effect on the group (R98). -/
theorem endRequest_failsGroup {s : State} {f : Frame} {rest : List Frame} (h : AtTake s f rest)
    {status : Status} (refused : status ≠ .ok) (payload : Bytes) :
    endRequest status payload (failGroup (startRequest f { s with inbound := rest })) =
      answered f rest status payload (groupFailed s) := by
  have failed : failGroup (startRequest f { s with inbound := rest }) =
      startRequest f { groupFailed s with inbound := rest } := by
    unfold failGroup groupFailed
    by_cases opened : s.group.state = .opened
    · rw [if_pos (by exact opened), if_pos opened]
      rfl
    · rw [if_neg (by exact opened), if_neg opened]
  rw [failed]
  exact endRequest_answers (s₁ := startRequest f { groupFailed s with inbound := rest }) h rfl rfl rfl
    status payload (omitted_of_ne_ok _ refused _)

/-! ## PUT -/

/-- Settles O37: the parser's two answers, and the length of the inline bytes. -/
theorem putFormAndAssembly : Obligations.PutFormAndAssembly := by
  intro s f rest h kind
  refine ⟨fun malformed => ?_, fun form inlineBytes isPut short => ?_⟩
  · rw [take_put h kind, handlePut, parsePut_eq_none malformed]
    exact congrArg _ (endRequest_refused h (by decide) [])
  · rw [take_put h kind, handlePut, (parsePut_eq_some_iff _ _ _).2 isPut]
    exact congrArg _ (if_neg (Nat.ne_of_lt short))

/-- A PUT whose value is complete at its take. -/
theorem exec_put_of_complete {s : State} {f : Frame} {rest : List Frame} {form : PutForm} {value : Bytes}
    (h : AtTake s f rest) (kind : f.kind = kPut) (isPut : IsPut f.payload form value)
    (complete : value.length = form.total) :
    exec .put s = .next (runPut s.engine.ns form value (startRequest f { s with inbound := rest })) := by
  rw [take_put h kind, handlePut, (parsePut_eq_some_iff _ _ _).2 isPut]
  exact congrArg _ (if_pos complete)

theorem conditionRefusal_eq_none {condition : Condition} {e : Effective}
    (holds : ConditionHolds condition e) : conditionRefusal condition e = none := by
  cases condition <;> cases e <;> simp_all [ConditionHolds, conditionRefusal]

theorem freeSlots_eq_zero_iff (s : State) :
    freeSlots s = 0 ↔ 1024 ≤ s.dir.length + s.group.reserved.length := by
  simp only [freeSlots, Config.dirSlots, reservedCount]
  omega

/-- A PUT that passes its checks is not refused (R28). -/
theorem putRefusal_eq_none {s : State} {ns : Nat} {form : PutForm} (device : s.log.device ≠ .readOnly)
    (passes : PutPasses s ns form) : putRefusal ns form s = none := by
  unfold putRefusal
  rw [if_neg device, if_neg passes.group, passes.unlocked, if_neg Bool.false_ne_true,
    conditionRefusal_eq_none passes.condition]
  dsimp only
  rw [if_neg, if_neg, if_neg]
  · simp only [groupFull, inGroup, Bool.and_eq_true, decide_eq_true_eq, not_and, Config.groupOps]
    exact fun group full => Nat.not_le.2 (passes.operations group) (of_decide_eq_true full)
  · exact fun both => Nat.not_lt.2 both.2 (passes.limit both.1)
  · rw [freeSlots_eq_zero_iff]
    exact fun both => Nat.not_lt.2 both.2 (passes.room both.1)

/-- What a PUT's hand-over does about its reservation (R96). -/
theorem reserved_eq (s : State) (ns : Nat) (key : Bytes) :
    (if reserves s ns key then takeReservation ns key s else s) = reserved s ns key := by
  unfold reserved
  cases reserves s ns key with
  | true => rfl
  | false =>
    rw [if_neg Bool.false_ne_true, if_neg Bool.false_ne_true, List.append_nil]

/-- A PUT that passes its checks is handed over (R29, R94, R96). -/
theorem runPut_passes {s : State} {ns : Nat} {form : PutForm} {value : Bytes}
    (device : s.log.device ≠ .readOnly) (passes : PutPasses s ns form) :
    runPut ns form value s = handOver (putJob s ns form.key value) (reserved s ns form.key) := by
  unfold runPut
  rw [putRefusal_eq_none device passes, ← reserved_eq]
  rfl

/-- Settles O38: the record is handed over, in a state with the same log and controller. -/
theorem completePutIsPlaced : Obligations.CompletePutIsPlaced := by
  intro s f rest form value head h kind isPut complete passes places
  have started : PutPasses (startRequest f { s with inbound := rest }) s.engine.ns form :=
    ⟨passes.group, passes.unlocked, passes.condition, passes.room, passes.limit, passes.operations⟩
  rw [exec_put_of_complete h kind isPut complete,
    runPut_passes (by exact fun readOnly => nomatch places.ready.symm.trans readOnly) started]
  exact congrArg _ (handOver_taken (s := reserved s s.engine.ns form.key)
    ⟨places.ready, places.free, places.isHead, places.sound, places.fits, places.idle, places.empty,
      places.more⟩ rfl)

/-- A complete PUT that a check refuses (R28). -/
theorem exec_put_refused {s : State} {f : Frame} {rest : List Frame} {form : PutForm} {value : Bytes}
    {status : Status} {payload : Bytes} (h : AtTake s f rest) (kind : f.kind = kPut)
    (isPut : IsPut f.payload form value) (complete : value.length = form.total)
    (refused : putRefusal s.engine.ns form s = some (status, payload)) :
    exec .put s = .next (endRequest status payload
      (refusalGroupEffect status (startRequest f { s with inbound := rest }))) := by
  have same : putRefusal s.engine.ns form (startRequest f { s with inbound := rest }) =
      some (status, payload) := refused
  rw [exec_put_of_complete h kind isPut complete, runPut, same]

section
variable {s : State} {ns : Nat} {form : PutForm} (device : s.log.device = .ready)
  (group : s.group.state ≠ .failed) (unlocked : writeLocked s ns = false)
include device group unlocked

/-- A complete PUT that meets its condition's refusal (R27, R28). -/
theorem putRefusal_of_condition {refusal : Status × Bytes}
    (refused : conditionRefusal form.condition (effective s ns form.key) = some refusal) :
    putRefusal ns form s = some refusal := by
  unfold putRefusal
  rw [if_neg (by rw [device]; nofun), if_neg group, unlocked, if_neg Bool.false_ne_true, refused]

/-- The checks of a complete PUT after its condition (R28). -/
theorem putRefusal_of_holds (holds : ConditionHolds form.condition (effective s ns form.key)) :
    putRefusal ns form s =
      if needsSlot s ns form.key ∧ freeSlots s = 0 then some (.dirFull, [])
      else if newKey s ns form.key ∧ limitOf s ns ≤ liveCount s.dir ns + pendingNew s ns then
        some (.limitReached, [])
      else if groupFull s then some (.groupFull, [])
      else none := by
  unfold putRefusal
  rw [if_neg (by rw [device]; nofun), if_neg group, unlocked, if_neg Bool.false_ne_true,
    conditionRefusal_eq_none holds]

end

/-- Settles O39: the checks are `putRefusal`'s, in order, and three of them fail an OPEN group. -/
theorem putRefusalsInOrder : Obligations.PutRefusalsInOrder := by
  intro s f rest form value h kind isPut complete ns refused
  have plain {status : Status} {payload : Bytes} (judged : putRefusal ns form s = some (status, payload))
      (notOk : status ≠ .ok) (alone : ∀ t, refusalGroupEffect status t = t) :
      refused status payload s := by
    refine (exec_put_refused h kind isPut complete judged).trans (congrArg _ ?_)
    rw [alone]
    exact endRequest_refused h notOk payload
  have failing {status : Status} (judged : putRefusal ns form s = some (status, []))
      (notOk : status ≠ .ok) (fails : ∀ t, refusalGroupEffect status t = failGroup t) :
      refused status [] (groupFailed s) := by
    refine (exec_put_refused h kind isPut complete judged).trans (congrArg _ ?_)
    rw [fails]
    exact endRequest_failsGroup h notOk []
  refine ⟨fun readOnly => plain (if_pos readOnly) (by decide) fun _ => rfl, fun ready =>
    ⟨fun failed => plain ?_ (by decide) fun _ => rfl, fun group =>
      ⟨fun locked => plain ?_ (by decide) fun _ => rfl, fun unlocked =>
        ⟨fun v condition live =>
            plain (putRefusal_of_condition ready group unlocked ?_) (by decide) fun _ => rfl,
          fun w condition absent =>
            plain (putRefusal_of_condition ready group unlocked ?_) (by decide) fun _ => rfl,
          fun w v condition differ standing =>
            plain (putRefusal_of_condition ready group unlocked ?_) (by decide) fun _ => rfl,
          fun holds => ?_⟩⟩⟩⟩
  · rw [putRefusal, if_neg (by rw [ready]; nofun), if_pos failed]
  · rw [putRefusal, if_neg (by rw [ready]; nofun), if_neg group, if_pos locked]
  · rw [condition, live, conditionRefusal]
  · rw [condition, absent, conditionRefusal]
  · rcases standing with live | buried
    · rw [condition, live, conditionRefusal, if_neg differ]
    · rw [condition, buried, conditionRefusal, if_neg differ]
  have checks := putRefusal_of_holds ready group unlocked holds
  simp only [freeSlots_eq_zero_iff] at checks
  refine ⟨fun new full => failing ?_ (by decide) fun _ => rfl, fun room =>
    ⟨fun new full => failing ?_ (by decide) fun _ => rfl,
      fun limit opened full => failing ?_ (by decide) fun _ => rfl⟩⟩
  · rw [checks, if_pos ⟨new, full⟩]
  · rw [checks, if_neg fun both => Nat.not_lt.2 both.2 (room both.1), if_pos ⟨new, full⟩]
  · have isFull : groupFull s = true := by
      simp [groupFull, inGroup, opened, Config.groupOps, full]
    rw [checks, if_neg fun both => Nat.not_lt.2 both.2 (room both.1),
      if_neg fun both => Nat.not_lt.2 both.2 (limit both.1), if_pos isFull]

/-! ## DELETE -/

section
variable {s : State} {f : Frame} {rest : List Frame} {key : Bytes} {expected : Nat}

/-- A DELETE that a check refuses (R31). -/
theorem exec_delete_refused {status : Status} {payload : Bytes} (h : AtTake s f rest)
    (kind : f.kind = kDelete) (form : IsDelete f.payload key expected)
    (refused : deleteRefusal s.engine.ns expected key s = some (status, payload)) :
    exec .delete s = .next (endRequest status payload
      (refusalGroupEffect status (startRequest f { s with inbound := rest }))) := by
  have same : deleteRefusal s.engine.ns expected key (startRequest f { s with inbound := rest }) =
      some (status, payload) := refused
  rw [take_delete h kind, handleDelete, (parseDelete_eq_some_iff _ _ _).2 form]
  dsimp only
  rw [same]

/-- A DELETE that passes its checks (R32). -/
theorem exec_delete_passes (h : AtTake s f rest) (kind : f.kind = kDelete)
    (form : IsDelete f.payload key expected)
    (passes : deleteRefusal s.engine.ns expected key s = none) :
    exec .delete s = .next (handOver
      { purpose := .delete
        record := newRecord .tombstone s.engine.ns (decide (s.group.state = .opened)) key [] }
      (startRequest f { s with inbound := rest })) := by
  have same : deleteRefusal s.engine.ns expected key (startRequest f { s with inbound := rest }) = none :=
    passes
  rw [take_delete h kind, handleDelete, (parseDelete_eq_some_iff _ _ _).2 form]
  dsimp only
  rw [same]

end

section
variable {s : State} {ns expected : Nat} {key : Bytes} (device : s.log.device = .ready)
  (group : s.group.state ≠ .failed) (unlocked : writeLocked s ns = false)
include device group unlocked

/-- A DELETE of a key that is not LIVE (R31). -/
theorem deleteRefusal_of_not_live (gone : ∀ v, effective s ns key ≠ .live v) :
    deleteRefusal ns expected key s = some (.notFound, []) := by
  unfold deleteRefusal
  rw [if_neg (by rw [device]; nofun), if_neg group, unlocked, if_neg Bool.false_ne_true]
  cases standing : effective s ns key with
  | absent | buried => rfl
  | live v => exact absurd standing (gone v)

/-- The checks of a DELETE of a LIVE key (R31). -/
theorem deleteRefusal_of_live {v : Nat} (live : effective s ns key = .live v) :
    deleteRefusal ns expected key s =
      if expected ≠ 0 ∧ expected ≠ v then some (.versionMismatch, le 4 v)
      else if groupFull s then some (.groupFull, [])
      else none := by
  unfold deleteRefusal
  rw [if_neg (by rw [device]; nofun), if_neg group, unlocked, if_neg Bool.false_ne_true, live]

end

/-- In an OPEN group, or outside any, the list is full at 32 operations (R97). -/
theorem groupFull_iff {s : State} (group : s.group.state ≠ .failed) :
    groupFull s = true ↔ s.group.state = .opened ∧ 32 ≤ s.group.list.length := by
  unfold groupFull inGroup
  rw [Bool.and_eq_true, decide_eq_true_iff, decide_eq_true_iff]
  refine and_congr_left fun _ => ?_
  cases state : s.group.state with
  | failed => exact absurd state group
  | noGroup | opened => decide

/-- Settles O43: the checks are `deleteRefusal`'s, in order; the record that passes is handed over. -/
theorem deleteIsCheckedThenPlaced : Obligations.DeleteIsCheckedThenPlaced := by
  intro s f rest h kind
  refine ⟨fun malformed => ?_, ?_⟩
  · rw [take_delete h kind, handleDelete, parseDelete_eq_none malformed]
    exact congrArg _ (endRequest_refused h (by decide) [])
  intro key expected form ns refused
  have plain {status : Status} {payload : Bytes}
      (judged : deleteRefusal ns expected key s = some (status, payload))
      (notOk : status ≠ .ok) (alone : ∀ t, refusalGroupEffect status t = t) :
      refused status payload s := by
    refine (exec_delete_refused h kind form judged).trans (congrArg _ ?_)
    rw [alone]
    exact endRequest_refused h notOk payload
  refine ⟨fun readOnly => plain (if_pos readOnly) (by decide) fun _ => rfl, fun ready =>
    ⟨fun failed => plain ?_ (by decide) fun _ => rfl, fun group locked =>
      plain ?_ (by decide) fun _ => rfl, fun group unlocked =>
        ⟨fun gone => plain (deleteRefusal_of_not_live ready group unlocked gone) (by decide) fun _ => rfl,
          fun v live => ?_⟩⟩⟩
  · rw [deleteRefusal, if_neg (by rw [ready]; nofun), if_pos failed]
  · rw [deleteRefusal, if_neg (by rw [ready]; nofun), if_neg group, if_pos locked]
  have checks := deleteRefusal_of_live (expected := expected) ready group unlocked live
  refine ⟨fun named differs => plain ?_ (by decide) fun _ => rfl, fun agrees =>
    ⟨fun opened full => ?_, fun head room places => ?_⟩⟩
  · rw [checks, if_pos ⟨named, differs⟩]
  · have judged : deleteRefusal ns expected key s = some (.groupFull, []) := by
      rw [checks, if_neg fun both => agrees.elim both.1 both.2,
        if_pos ((groupFull_iff group).2 ⟨opened, full⟩)]
    exact (exec_delete_refused h kind form judged).trans
      (congrArg _ (endRequest_failsGroup h (by decide) []))
  · have passes : deleteRefusal ns expected key s = none := by
      rw [checks, if_neg fun both => agrees.elim both.1 both.2,
        if_neg fun full => by
          have both := (groupFull_iff group).1 full
          exact Nat.not_le.2 (room both.1) both.2]
    exact (exec_delete_passes h kind form passes).trans (congrArg _ (handOver_taken places rfl))

/-! ## GET -/

/-- A GET has opened its stream and pinned the entry's segment; its first read is not asked for yet (R33). -/
def streamOpened (f : Frame) (rest : List Frame) (e : Entry) (length : Nat) (s : State) : State :=
  { s with
    inbound := rest
    engine := { s.engine with
      state := .streaming
      request := some (requestOf f s)
      stream := some
        { key := e.key, version := e.version, length := length, loc := e.loc, sent := 0, chunk := none } }
    log := { s.log with segs := s.log.segs.modify e.loc.seg fun g => { g with pin := true } } }

theorem exec_get_of_live {s : State} {f : Frame} {rest : List Frame} {key : Bytes} {e : Entry}
    {length : Nat} (h : AtTake s f rest) (kind : f.kind = kGet) (form : IsKey f.payload key)
    (found : lookup s.dir s.engine.ns key = some e) (live : e.state = .live length) :
    exec .get s = .next (ask (.getFirstRead e.loc true) (streamOpened f rest e length s)) := by
  have stream : e.stream =
      { key := e.key, version := e.version, length := length, loc := e.loc, sent := 0, chunk := none } := by
    simp [Entry.stream, Entry.length, live]
  rw [take_get h kind, handleGet, (parseKey_eq_some_iff _ _).2 form]
  refine congrArg _ ?_
  dsimp only
  rw [found]
  dsimp only
  rw [if_pos (by simp [Entry.isLive, live]), stream]
  rfl

/-- Settles O44: the lookup's answer decides; the first read starts on the idle controller. -/
theorem getPinsAndReads : Obligations.GetPinsAndReads := by
  intro s f rest h kind
  have other : f.kind ∉ [kPut, kDelete, kSelect] := by rw [kind]; decide
  refine ⟨fun malformed => ?_, fun key form => ⟨fun buried => ?_,
    fun e length found live idle empty => ?_⟩⟩
  · rw [take_get h kind, handleGet, (parseKey_eq_none_iff _).2 malformed]
    exact congrArg _ (refuseForm_startRequest h other)
  · rw [take_get h kind, handleGet, (parseKey_eq_some_iff _ _).2 form]
    refine congrArg _ ?_
    dsimp only
    cases found : lookup s.dir s.engine.ns key with
    | none => exact endRequest_startRequest h other _ _
    | some e =>
      dsimp only
      rw [if_neg (by simp [Entry.isLive, buried e found])]
      exact endRequest_startRequest h other _ _
  · rw [exec_get_of_live h kind form found live, ask_idle _ _ (by exact idle) (admits_idle _ (by exact idle)
      (by exact empty) (.inl (by simp [ArrayOp.requester])))]
    rfl

end Sys2Proof.Machine
end

section
/-!
PROOFS. A PUT that does not fit (R51 to R57, R69), DATA (R22, R23, R26), and the end of an assembly (R24,
R25): O40 to O42.
-/

namespace Sys2Proof.Machine

open Sys2Proof

/-! ## A record that does not fit -/

/-- An engine at rest has no assembly. -/
theorem assembly_of_rest {e : Engine} (h : e.toIdle = e) : e.assembly = none := by
  rw [← h]
  rfl

/-- The engine has handed a record to the log manager, which tries to place it. -/
def attempting (j : Job) (s : State) : State :=
  { s with
    engine := { s.engine with state := .busy, job := some j }
    log := { s.log with engineWaits := false } }

/-- A record handed over with the append point free is placed where it may be, and else needs space. -/
theorem handOver_attempts {s : State} {j : Job} (ready : s.log.device = .ready)
    (free : s.log.grant = none) (assembly : s.engine.assembly = none) (whole : commitLost j s = false) :
    handOver j s =
      if engineMayPlace j.record.size s then placeOrOpen (Grant.ofJob j) (attempting j s)
      else needForSpace j (attempting j s) := by
  have started : startJob j s = { s with engine := { s.engine with state := .busy, job := some j } } := by
    rw [startJob, ← assembly]
  unfold handOver
  rw [started]
  dsimp only
  rw [if_pos free]
  unfold attemptEngine
  dsimp only
  rw [if_neg (by rw [ready]; nofun), if_neg (by rw [Bool.not_eq_true]; exact whole)]
  rfl

/-- A first attempt that cannot be placed waits where reclaim can free enough (R56, R69). -/
theorem needForSpace_waits {s : State} {j : Job} (enough : j.record.size ≤ reclaimable s.log.segs) :
    needForSpace j s = weighPass (waitForSpace s) := if_pos enough

theorem engineMayPlace_full {s : State} {size : Nat} (full : fitsHead s.log.segs size = false)
    (low : erasedCount s.log.segs ≤ 1) : engineMayPlace size s = false := by
  unfold engineMayPlace
  rw [full, decide_eq_false (Nat.not_le.2 (Nat.lt_succ_of_le low))]
  rfl

/-- Outside a group a PUT takes no reservation (R96). -/
theorem reserved_outside {s : State} (outside : s.group.state = .noGroup) (ns : Nat) (key : Bytes) :
    reserved s ns key = s := by
  rw [← reserved_eq]
  exact if_neg (by simp [reserves, outside])

theorem PutPasses.taken {s : State} {ns : Nat} {form : PutForm} (h : PutPasses s ns form) (f : Frame)
    (rest : List Frame) : PutPasses (startRequest f { s with inbound := rest }) ns form :=
  ⟨h.group, h.unlocked, h.condition, h.room, h.limit, h.operations⟩

/-- A PUT outside a group that passes its checks with the append point free. -/
theorem exec_put_attempts {s : State} {f : Frame} {rest : List Frame} {form : PutForm} {value : Bytes}
    (h : AtTake s f rest) (kind : f.kind = kPut) (isPut : IsPut f.payload form value)
    (complete : value.length = form.total) (passes : PutPasses s s.engine.ns form)
    (outside : s.group.state = .noGroup) (ready : s.log.device = .ready) (free : s.log.grant = none)
    {j : Job} (job : putJob s s.engine.ns form.key value = j) :
    exec .put s = .next
      (if engineMayPlace j.record.size s then
        placeOrOpen (Grant.ofJob j) (attempting j (startRequest f { s with inbound := rest }))
      else needForSpace j (attempting j (startRequest f { s with inbound := rest }))) := by
  subst job
  rw [exec_put_of_complete h kind isPut complete,
    runPut_passes (by exact fun readOnly => nomatch ready.symm.trans readOnly) (passes.taken f rest),
    reserved_outside (by exact outside),
    handOver_attempts (s := startRequest f { s with inbound := rest }) ready free
      (assembly_of_rest (e := s.engine) h.idle) rfl]
  rfl

/-- A PUT that can neither be placed nor wait ends NO_SPACE behind SPACE_LOW (R56). -/
theorem needForSpace_fails {s : State} {f : Frame} {rest : List Frame} {ns : Nat} {key value : Bytes}
    (h : AtTake s f rest) (outside : s.group.state = .noGroup)
    (few : reclaimable s.log.segs < recordSize key.length value.length) (room : s.replies.length < 7) :
    needForSpace (putJob s ns key value)
        (attempting (putJob s ns key value) (startRequest f { s with inbound := rest })) =
      answered f rest .noSpace []
        (replied (Notice.spaceLow (erasedCount s.log.segs) (reclaimable s.log.segs)
            (recordSize key.length value.length)).out
          { s with
            log := { s.log with engineWaits := false }
            reclaim := { s.reclaim with foreground := false } }) := by
  have low : ¬ (putJob s ns key value).record.size ≤ reclaimable s.log.segs := Nat.not_le.2 few
  unfold needForSpace
  rw [if_neg (by exact low), raiseSpaceLow, raise_open (s := attempting (putJob s ns key value)
    (startRequest f { s with inbound := rest })) _ ⟨Nat.lt_succ_of_lt room, h.quiet⟩]
  unfold endJob
  dsimp only [replied, attempting]
  have kept (t : State) (same : t.group = s.group) :
      jobGroupEffect (putJob s ns key value) .noSpace t = t := by
    change failGroup t = t
    rw [failGroup, if_neg (by rw [same, outside]; nofun)]
  rw [kept _ (by rfl)]
  exact endRequest_current (u := replied _
      { attempting (putJob s ns key value) (startRequest f { s with inbound := rest }) with
        reclaim := { s.reclaim with foreground := false } }) rfl h.idle
    (breaking_of_rest (e := s.engine) h.idle) ⟨by simp [replied, attempting, startRequest]; omega, h.quiet⟩
    .noSpace [] (omitted_of_ne_ok _ (by decide) _)

/-- Settles O40: the branches of `engineMayPlace` and of `needForSpace`; the head chosen is the ERASED
segment of least erase count. -/
theorem putWithoutRoomWaitsFailsOrOpensAHead : Obligations.PutWithoutRoomWaitsFailsOrOpensAHead := by
  refine ⟨?_, ?_, ?_, fun segs v chosen => ?_⟩
  · intro s f rest form value h kind isPut complete passes outside ready free job size full low
    have next := exec_put_attempts h kind isPut complete passes outside ready free rfl
    rw [if_neg (by rw [Bool.not_eq_true]; exact engineMayPlace_full full low)] at next
    refine ⟨fun busy enough => ?_, fun few room => ?_⟩
    · rw [next, needForSpace_waits (by exact enough), weighPass_busy (by exact busy)]
      rfl
    · rw [next, needForSpace_fails h outside few room]
  · intro s f rest form value w h kind isPut complete passes outside ready free idle victim rests empty
      unpaused size full low enough
    have next := exec_put_attempts h kind isPut complete passes outside ready free rfl
    rw [if_neg (by rw [Bool.not_eq_true]; exact engineMayPlace_full full low)] at next
    rw [next, needForSpace_waits (by exact enough),
      weighPass_begins (s := waitForSpace (attempting (putJob s s.engine.ns form.key value)
        (startRequest f { s with inbound := rest }))) (w := w) (by exact idle) (by exact ready) (.inl rfl) victim,
      ask_idle _ _ (by exact rests)
        (admits_idle _ (by exact rests) (by exact empty) (.inr (by exact unpaused)))]
    rfl
  · intro s f rest form value v h kind isPut complete passes outside ready free more idle empty full
      floor choice job
    have next := exec_put_attempts h kind isPut complete passes outside ready free rfl
    have may : engineMayPlace job.record.size s = true := by
      unfold engineMayPlace
      rw [decide_eq_true floor, Bool.or_true]
    rw [if_pos (by exact may)] at next
    rw [next, placeOrOpen_full (by exact full), openHead_asks (by exact more) (by exact choice),
      ask_idle _ _ (by exact idle) (admits_idle _ (by exact idle) (by exact empty)
        (.inl (by simp [ArrayOp.requester])))]
    rfl
  · obtain ⟨below, erased, least, first⟩ := leastSeg_spec chosen
    refine ⟨below, of_decide_eq_true erased, fun w inside also => ?_⟩
    rcases Nat.lt_or_ge w v with lower | higher
    · exact .inl (first w lower (decide_eq_true also))
    · exact (Nat.lt_or_eq_of_le (least w inside (decide_eq_true also))).imp_right fun same =>
        ⟨same, higher⟩

/-! ## DATA -/

/-- While a PUT assembles the engine takes each frame. -/
theorem takeKind_assembling {s : State} {r : Request} {a : Assembly} {f : Frame} {rest : List Frame}
    (h : AtAssembling s r a f rest) {kind : Byte} (fits : f.kind = kind) :
    takeKind kind s = takeAssembling f { s with inbound := rest } := by
  have takes : (running s && decide (s.log.device ≠ .mounting) && decide (f.kind = kind) &&
      mayTake s) = true := by
    simp [running, h.powered, h.rst, h.mounted, mayTake, h.state, fits]
  unfold takeKind takeHead
  rw [h.head]
  dsimp only
  rw [if_pos takes]
  exact if_pos h.state

theorem takeAssembling_data {s : State} {r : Request} {a : Assembly} {f : Frame}
    (request : s.engine.request = some r) (assembly : s.engine.assembly = some a) (kind : f.kind = kData) :
    takeAssembling f s = assembleData r a f s := by
  simp only [takeAssembling, request, assembly, kind, if_true]

theorem takeAssembling_other {s : State} {r : Request} {a : Assembly} {f : Frame}
    (request : s.engine.request = some r) (assembly : s.engine.assembly = some a)
    (kind : f.kind ≠ kData) : takeAssembling f s = breakAssembly r f s := by
  simp only [takeAssembling, request, assembly, kind, if_false]

/-- DATA while a PUT assembles. -/
theorem exec_data_assembling {s : State} {r : Request} {a : Assembly} {f : Frame} {rest : List Frame}
    (h : AtAssembling s r a f rest) (kind : f.kind = kData) :
    exec .data s = .next (assembleData r a f { s with inbound := rest }) := by
  rw [← takeAssembling_data (s := { s with inbound := rest }) h.request h.assembly kind,
    ← takeKind_assembling h kind]
  rfl

/-- A payload too short for the offset (R23, R26). -/
theorem parseData_short {payload : Bytes} : payload.length < 2 → parseData payload = none := by
  rcases payload with _ | ⟨o0, _ | ⟨o1, bytes⟩⟩
  · exact fun _ => rfl
  · exact fun _ => rfl
  · exact fun short => absurd short (by simp)

theorem parseData_long {payload : Bytes} (long : ¬ payload.length < 2) :
    ∃ form, parseData payload = some form := by
  rcases payload with _ | ⟨o0, _ | ⟨o1, bytes⟩⟩
  · exact absurd (by simp) long
  · exact absurd (by simp) long
  · exact ⟨_, rfl⟩

theorem parseData_cons (o0 o1 : Byte) (bytes : Bytes) :
    parseData (o0 :: o1 :: bytes) = some (o0.toNat + 256 * o1.toNat, bytes) := by
  rw [← leNat_two]
  rfl

/-- Two replies decided with two slots free. -/
theorem decide_two {s : State} {r : Request} (room : s.replies.length < 7) (quiet : s.notices = [])
    (unbroken : s.engine.breaking = none) (status : Status) (payload : Bytes) (o : Out) :
    decide_ [r.reply status payload, o] s = replied o (concluded r status payload s) := by
  have first (t : State) (same : t.replies = s.replies) (still : t.notices = s.notices) :
      (slotFree t && t.notices.isEmpty) = true :=
    mayQueue_of_open ⟨by rw [same]; exact Nat.lt_succ_of_lt room, by rw [still, quiet]⟩
  have second (t : State) (more : t.replies.length = s.replies.length + 1)
      (still : t.notices = s.notices) : (slotFree t && t.notices.isEmpty) = true :=
    mayQueue_of_open ⟨by rw [more]; exact Nat.succ_lt_succ room, by rw [still, quiet]⟩
  unfold decide_ moveDecided
  rw [if_pos (by exact first _ rfl rfl), moveDecided,
    if_pos (by exact second _ (by simp [enqueue]) rfl), moveDecided]
  unfold settleReplies
  rw [if_pos (by simp [enqueue, unbroken])]
  rfl

/-- A DATA that cannot join breaks the assembly, and is refused behind it (R23). -/
theorem breakByData_replies {s : State} (r : Request) (f : Frame) (status : Status)
    (room : s.replies.length < 7) (quiet : s.notices = []) (unbroken : s.engine.breaking = none) :
    breakByData r f status s =
      replied { kind := 0x89, tag := f.tag, status := status, payload := [] }
        (concluded r .incomplete [] s) := decide_two room quiet unbroken _ _ _

theorem PlacesAtOnce.completing {s t : State} {head size : Nat} (h : PlacesAtOnce s head size)
    (log : t.log = s.log) (ctrl : t.ctrl = s.ctrl) : PlacesAtOnce t head size :=
  ⟨by rw [log]; exact h.ready, by rw [log]; exact h.free, by rw [log]; exact h.isHead,
    by rw [log]; exact h.sound, by rw [log]; exact h.fits, by rw [ctrl]; exact h.idle,
    by rw [ctrl]; exact h.empty, by rw [log]; exact h.more⟩

/-- Settles O41: the branches of `assembleData`, by tag, offset and length. -/
theorem dataJoinsBreaksOrIsRefused : Obligations.DataJoinsBreaksOrIsRefused := by
  refine ⟨fun s r a f rest o0 o1 bytes h kind tag payload offset => ?_,
    fun s f rest h kind => ?_, fun s r a f rest h kind room quiet unbroken => ?_⟩
  · have next := exec_data_assembling h kind
    unfold assembleData at next
    rw [payload, parseData_cons] at next
    dsimp only at next
    refine ⟨fun short => ?_, fun head whole passes places => ?_⟩
    · rw [if_pos ⟨tag, offset, by omega⟩, if_neg (by rw [List.length_append]; omega)] at next
      exact next
    · rw [if_pos ⟨tag, offset, by omega⟩, if_pos (by rw [List.length_append]; exact whole)] at next
      have sized : (putJob s r.ns a.form.key (a.buffer ++ bytes)).record.size =
          recordSize a.form.key.length a.form.total := by
        rw [← whole, ← List.length_append]
        rfl
      rw [next, runPut_passes (by exact fun readOnly => nomatch places.ready.symm.trans readOnly)
        (by exact ⟨passes.group, passes.unlocked, passes.condition, passes.room, passes.limit,
          passes.operations⟩)]
      exact congrArg _ (handOver_places (j := putJob s r.ns a.form.key (a.buffer ++ bytes))
        (by rw [sized]; exact places.completing rfl rfl) rfl)
  · rw [take_data h kind, handleData]
    split_ifs with short
    · rw [parseData_short short]
      exact congrArg _ (endRequest_refused h (by decide) [])
    · obtain ⟨form, parsed⟩ := parseData_long short
      rw [parsed]
      exact congrArg _ (endRequest_refused h (by decide) [])
  · have next := exec_data_assembling h kind
    unfold assembleData at next
    refine ⟨fun short => ?_, fun o0 o1 bytes payload apart bounded => ?_⟩
    · rw [parseData_short short] at next
      rw [next]
      exact congrArg _ (breakByData_replies r f _ room quiet unbroken)
    · rw [payload, parseData_cons] at next
      dsimp only at next
      have stays : ¬ (f.tag = r.tag ∧ o0.toNat + 256 * o1.toNat = a.buffer.length ∧
          bytes.length ≤ a.form.total - a.buffer.length) := by
        rintro ⟨tag, offset, fits⟩
        rcases apart with other | other | more
        · exact other tag
        · exact other offset
        · omega
      rw [if_neg stays] at next
      rw [next]
      exact congrArg _ (breakByData_replies r f _ room quiet unbroken)

/-! ## The end of an assembly -/

/-- With slots free the INCOMPLETE reply is queued, and the frame that broke the assembly is handled as
from IDLE (R24). -/
theorem breakAssembly_continues {s : State} (r : Request) (f : Frame) (slot : SlotOpen s) :
    breakAssembly r f s = handleFrame f (concluded r .incomplete [] s) := by
  have queued : decide_ [r.reply .incomplete []]
        { s with engine := { s.engine with breaking := some f } } =
      replied (r.reply .incomplete []) { s with engine := { s.engine with
        state := .replyWait, assembly := none, job := none, stream := none, decided := []
        breaking := some f } } := by
    unfold decide_
    rw [moveDecided_open (by exact ⟨slot.slot, slot.quiet⟩)]
    rfl
  rw [breakAssembly, queued]
  rfl

/-- With no slot free the reply waits, and the frame with it. -/
theorem breakAssembly_waits {s : State} (r : Request) (f : Frame) (full : ¬ s.replies.length < 8) :
    breakAssembly r f s = { s with engine := { s.engine with
      state := .replyWait, assembly := none, job := none, stream := none, breaking := some f
      decided := [{ kind := r.kind + 0x80, tag := r.tag, status := .incomplete, payload := [] }] } } := by
  unfold breakAssembly decide_
  rw [moveDecided_full (by exact decide_eq_false full) (by simp)]
  rfl

/-- LOCKDOWN while a PUT assembles. -/
theorem exec_lockdown_assembling {s : State} {r : Request} {a : Assembly} {f : Frame} {rest : List Frame}
    (h : AtAssembling s r a f rest) (kind : f.kind = kLockdown) :
    exec .lockdown s = .next (breakAssembly r f { s with inbound := rest }) := by
  rw [← takeAssembling_other (s := { s with inbound := rest }) h.request h.assembly
    (by rw [kind]; decide), ← takeKind_assembling h kind]
  rfl

/-- Settles O42: `breakAssembly` with and without a slot, and `timerExpired`. -/
theorem assemblyEndsByFrameOrTimer : Obligations.AssemblyEndsByFrameOrTimer := by
  refine ⟨fun s r a f rest mask h kind payload => ⟨fun room quiet => ?_, fun full => ?_⟩,
    fun s => ⟨fun other => ?_, fun r powered rst state request unbroken slot => ?_⟩⟩
  · rw [exec_lockdown_assembling h kind,
      breakAssembly_continues r f (by exact ⟨Nat.lt_succ_of_lt room, quiet⟩),
      handleFrame_lockdown _ kind, handleLockdown, payload]
    have queued : omitted f.kind .ok s.engine.mode = false := omitted_eq_false (by rw [kind]; decide) _ _
    exact congrArg _ (endRequest_concludes (s := { startRequest f
        (concluded r .incomplete [] { s with inbound := rest }) with
          prot := { s.prot with lockdowns := s.prot.lockdowns ||| mask } }) (r := requestOf f s)
      ⟨by simp [concluded, replied, startRequest]; omega, quiet⟩ rfl rfl .ok
      [s.prot.lockdowns ||| mask] queued)
  · rw [exec_lockdown_assembling h kind, breakAssembly_waits r f (by exact Nat.not_lt.2 full)]
  · have idle : timerExpired s = s := if_neg (by simp [other])
    exact congrArg _ idle
  · have expires : timerExpired s = endRequest .incomplete [] s :=
      if_pos (by simp [running, powered, rst, state])
    refine congrArg _ (expires.trans ?_)
    exact endRequest_concludes slot unbroken request _ _ (omitted_of_ne_ok _ (by decide) _)

end Sys2Proof.Machine
end

section
/-!
PROOFS. What the end of an array operation leaves, said once for the completions: the controller at rest and
the next request on it, the retirement of a victim, and a pass completion with nothing due (R58, R84 to R86).
-/

namespace Sys2Proof.Machine

open Sys2Proof

/-! ## The controller at a completion -/

theorem Running.runs {s : State} {op : ArrayOp} (h : Running s op) : running s = true := by
  rw [running, h.powered, h.rst]
  rfl

/-- The operation in progress ends, whatever its outcome wrote. -/
theorem completeOp_running {s t : State} {op : ArrayOp} (h : Running s op) (same : t.ctrl = s.ctrl) :
    completeOp t = { t with ctrl := s.ctrl.rest } := by
  rw [completeOp_rest t (by rw [same]; exact h.empty) (by rw [same]; exact h.held)
    (by rw [same]; exact h.unpaused), same]

/-- A request, of an erase apart, on the controller that the end of an operation left at rest. -/
theorem ask_rest {s t : State} {cur : ArrayOp} (h : Running s cur) (rests : t.ctrl = s.ctrl.rest)
    {op : ArrayOp} (other : ∀ v, op ≠ .erase v) :
    ask op t = { t with ctrl := { s.ctrl with cur := some op } } := by
  have idle : t.ctrl.cur = none := by rw [rests]; rfl
  have empty : t.ctrl.queue = [] := by rw [rests]; exact h.empty
  have unpaused : t.ctrl.paused = none := by rw [rests]; exact h.unpaused
  have started : s.ctrl.rest.start op s.ctrl.rest.queue = { s.ctrl with cur := some op } := by
    cases op with
    | erase v => exact absurd rfl (other v)
    | _ => rfl
  rw [ask_idle _ _ idle (admits_idle _ idle empty (.inr unpaused)), rests, started]

/-! ## Retirement -/

theorem erasedCount_le_inUse (segs : List SegEntry) : erasedCount segs ≤ inUse segs := by
  unfold erasedCount countSegs inUse
  refine (List.monotone_filter_right segs fun e erased => ?_).length_le
  rw [of_decide_eq_true erased]
  rfl

/-- With 4 segments in use left the device stays as it is (R61). -/
theorem retirementTest_stays {s : State} (enough : 4 ≤ erasedCount s.log.segs) : retirementTest s = s :=
  if_neg (Nat.not_lt.2 (Nat.le_trans enough (erasedCount_le_inUse _)))

/-- SEGMENT_RETIRED of a segment just put out of use is queued (R85). -/
theorem raiseRetired_open {s : State} {v : Nat} {cause : RetireCause} {segs : List SegEntry}
    (just : s.log.segs = retired v segs) (slot : SlotOpen s) :
    raiseRetired v cause s = replied (retiredNotice v cause segs).out s := by
  have count : (segAt (retired v segs) v).eraseCount = (segAt segs v).eraseCount := by
    unfold retired
    rw [segAt_modify]
    split_ifs <;> rfl
  rw [raiseRetired, raise_open _ slot, just, count]
  rfl

/-! ## A pass completion with nothing due -/

/-- With no job in hand no record waits for space. -/
theorem reexamine_idle {s : State} (job : s.engine.job = none) : reexamine s = s := by
  unfold reexamine
  rw [job]

/-- An engine that is IDLE runs no TIDY. -/
theorem tidyRunning_idle {s : State} (idle : s.engine.state = .idle) : tidyRunning s = false := by
  unfold tidyRunning
  cases s.engine.request with
  | none => rfl
  | some r => simp [idle]

theorem endTidy_idle {s : State} (idle : tidyRunning s = false) : endTidy s = s :=
  if_neg (by rw [idle]; exact Bool.false_ne_true)

theorem tidyTest_idle {s : State} (idle : tidyRunning s = false) : tidyTest s = s := by
  unfold tidyTest
  rw [endTidy_idle idle, ite_self]

theorem countPass_idle {s : State} {freed : Nat} (idle : tidyRunning s = false) : countPass freed s = s :=
  if_neg (by rw [idle]; exact Bool.false_ne_true)

/-- The unit with no pass in hand, and all else as it stands. -/
def passCleared (s : State) : State := { s with reclaim := s.reclaim.clearPass }

/-- A pass completes with the engine IDLE and nothing due. -/
theorem completePass_idle {s : State} (freed : Nat) (idle : s.engine.state = .idle)
    (job : s.engine.job = none) (due : NothingDue (passCleared s) s.dir) :
    completePass freed s = passCleared s := by
  have still : tidyRunning (passCleared s) = false := tidyRunning_idle idle
  have quiet : weighPass (testBackground (passCleared s)) = passCleared s :=
    backgroundEvent_nothingDue due
  have test : tidyTest (testBackground (passCleared s)) = testBackground (passCleared s) := by
    refine tidyTest_idle ?_
    rw [testBackground_flagTested]
    exact still
  unfold completePass completePassWith
  rw [show ({ s with reclaim := s.reclaim.clearPass } : State) = passCleared s from rfl,
    countPass_idle still, reexamine_idle (by exact job), test, quiet]

/-- A victim is retired with the engine IDLE and nothing due (R84 to R86). -/
theorem retireVictim_idle {r s : State} {cur : ArrayOp} (h : Running r cur) (rests : s.ctrl = r.ctrl.rest)
    {v : Nat} (cause : RetireCause) (slot : SlotOpen s) (idle : s.engine.state = .idle)
    (job : s.engine.job = none)
    (due : NothingDue (victimRetired v cause s) (victimRetired v cause s).dir) :
    retireVictim v cause s = { victimRetired v cause s with
      ctrl := { r.ctrl with cur := some (.retiredMark v) } } := by
  let t : State := { s with
    ctrl := { r.ctrl with cur := some (.retiredMark v) }
    dir := s.dir.filter fun e => e.isLive || decide (e.loc.seg ≠ v)
    log := { s.log with segs := retired v s.log.segs } }
  have asked : buriedDrop v (modSeg v SegEntry.retire (ask (.retiredMark v) s)) = t := by
    rw [ask_rest h rests (by simp)]
    rfl
  have raised : raiseRetired v cause t = replied (retiredNotice v cause s.log.segs).out t :=
    raiseRetired_open rfl ⟨slot.slot, slot.quiet⟩
  unfold retireVictim retireVictimWith
  dsimp only
  rw [asked, raised, retirementTest_stays (by exact due.erased)]
  exact completePass_idle 0 idle job
    ⟨due.engine, due.copy, due.foreground, due.background, due.tidy, due.erased, due.buried⟩

end Sys2Proof.Machine
end

section
/-!
PROOFS. The chunks of a GET follow its reads (R34 to R36, R80): O45.
-/

namespace Sys2Proof.Machine

open Sys2Proof

/-! ## A pin that PIN_WAIT waits for, on a suspect victim -/

theorem releasePin_retires {s : State} {seg : Nat} (waits : s.reclaim.state = .pinWait)
    (victim : s.reclaim.victim = some seg) (suspect : (segAt s.log.segs seg).suspect = true) :
    releasePin seg s =
      retireVictim seg .suspect (modSeg seg (fun e => { e with pin := false }) s) := by
  have inside : seg < s.log.segs.length := by
    by_contra outside
    rw [segAt, List.getD_eq_getElem?_getD, List.getElem?_eq_none (Nat.not_lt.1 outside)] at suspect
    cases suspect
  have same : segAt (s.log.segs.modify seg fun e => { e with pin := false }) seg =
      { segAt s.log.segs seg with pin := false } := by
    rw [segAt_modify, if_pos ⟨rfl, inside⟩]
  unfold releasePin
  dsimp only
  rw [if_pos (by exact ⟨waits, victim⟩)]
  unfold leaveWalk leaveWalkWith
  rw [if_neg (by simp [modSeg, same]), if_pos (by simp [modSeg, same, suspect])]
  rfl

/-! ## A read that has its data -/

/-- The data of a stream's next chunk is in hand, with the controller at rest. -/
def chunkHeld (st : Stream) (data : Bytes) (s : State) : State :=
  { s with
    ctrl := s.ctrl.rest
    engine := { s.engine with stream := some { st with chunk := some data } } }

/-- The read of a stream in progress: its first, or the read of a later chunk. -/
def ReadOf (st : Stream) (c : Instr) (op : ArrayOp) : Prop :=
  (c = .getFirstReadDone true ∧ op = .getFirstRead st.loc true ∧ st.sent = 0) ∨
    (c = .chunkReadDone ∧ op = .chunkRead st.loc true)

/-- A read that passes has its chunk offered to the reply queue (R34, R35). -/
theorem exec_read_offers {s : State} {st : Stream} {q : Request} {r : Record} {c : Instr} {op : ArrayOp}
    (read : ReadOf st c op) (h : Running s op) (request : s.engine.request = some q)
    (stream : s.engine.stream = some st) (stands : recordAt s st.loc = some r) :
    exec c s = .next (offerChunk (chunkHeld st (chunkData r.value st.sent st.length) s)) := by
  have rests : completeOp s = { s with ctrl := s.ctrl.rest } := completeOp_running h rfl
  have ready (data : Bytes) : chunkReady data { s with ctrl := s.ctrl.rest } =
      offerChunk (chunkHeld st data s) := by
    simp only [chunkReady, stream]
    rfl
  have still : recordAt { s with ctrl := s.ctrl.rest } st.loc = some r := stands
  rcases read with ⟨rfl, rfl, start⟩ | ⟨rfl, rfl⟩
  · have next : exec (.getFirstReadDone true) s = .next (getFirstReadDoneEffect true s) :=
      congrArg _ (if_pos h.runs)
    have first : firstReadDone true st.loc { s with ctrl := s.ctrl.rest } =
        chunkReady (chunkData r.value 0 st.length) { s with ctrl := s.ctrl.rest } := by
      simp only [firstReadDone, request, stream, still, if_true]
    rw [next, getFirstReadDoneEffect, h.cur]
    dsimp only
    rw [if_pos rfl, rests, first, ready, start]
  · have next : exec .chunkReadDone s = .next (chunkReadDoneEffect s) := congrArg _ (if_pos h.runs)
    have later : chunkReadDone st.loc { s with ctrl := s.ctrl.rest } =
        chunkReady (chunkData r.value st.sent st.length) { s with ctrl := s.ctrl.rest } := by
      simp only [chunkReadDone, stream, still]
    rw [next, chunkReadDoneEffect, h.cur]
    dsimp only
    rw [if_pos rfl, rests, later, ready]

/-- A chunk's frame (R35, R36). -/
def chunkOut (q : Request) (st : Stream) (flags : Nat) (data : Bytes) : Out :=
  { kind := q.kind + 0x80, tag := q.tag, status := .ok
    payload := le 4 st.version ++ le 2 st.length ++ le 2 flags ++ data }

/-- The offset with its flags FIRST and LAST (R35). -/
theorem chunkOut_eq (q : Request) {st : Stream} (small : st.sent ≤ 4096) (last : Bool) (data : Bytes) :
    q.reply .ok (chunkPayload st.version st.length st.sent (decide (st.sent = 0)) last data) =
      chunkOut q st (st.sent + (if st.sent = 0 then 16384 else 0) + if last then 32768 else 0) data := by
  have within : st.sent % 8192 = st.sent := Nat.mod_eq_of_lt (by omega)
  rw [chunkPayload_eq, within]
  rfl

/-- The stream has ended: its pin is released, and the engine is IDLE (R35). -/
def streamEnded (st : Stream) (s : State) : State :=
  { s with
    ctrl := s.ctrl.rest
    engine := s.engine.toIdle
    log := { s.log with segs := s.log.segs.modify st.loc.seg fun e => { e with pin := false } } }

/-- The whole value from an offset on, as its last chunk carries it. -/
theorem chunkData_last (value : Bytes) {sent : Nat} (ends : value.length - sent ≤ 240) :
    chunkData value sent value.length = value.drop sent := by
  unfold chunkData
  rw [List.take_of_length_le]
  rw [List.length_drop, Nat.min_eq_right (by exact ends)]

theorem chunkData_more (value : Bytes) {sent : Nat} (more : 240 < value.length - sent) :
    chunkData value sent value.length = (value.drop sent).take 240 := by
  unfold chunkData
  rw [Nat.min_eq_left (by exact Nat.le_of_lt more)]
  rfl

section

variable {s : State} {st : Stream} {q : Request} {data : Bytes}

/-- The last chunk is queued, before its pin is released. -/
theorem offer_last (slot : SlotOpen s) (request : s.engine.request = some q) (small : st.sent ≤ 4096)
    (ends : st.length - st.sent ≤ 240) :
    offerChunk (chunkHeld st data s) = releasePin st.loc.seg
      (replied (chunkOut q st (st.sent + (if st.sent = 0 then 16384 else 0) + 32768) data)
        { s with ctrl := s.ctrl.rest, engine := s.engine.toIdle }) := by
  have ended := offerChunk_last (s := chunkHeld st data s) (q := q)
    (st := { st with chunk := some data }) (data := data) ⟨slot.slot, slot.quiet⟩ request rfl rfl ends
  rw [ended, chunkOut_eq q (by exact small)]
  rfl

/-- The last chunk, with no pass that waits for the pin. -/
theorem offer_last_plain (slot : SlotOpen s) (request : s.engine.request = some q)
    (small : st.sent ≤ 4096) (ends : st.length - st.sent ≤ 240) (other : s.reclaim.state ≠ .pinWait) :
    offerChunk (chunkHeld st data s) =
      replied (chunkOut q st (st.sent + (if st.sent = 0 then 16384 else 0) + 32768) data)
        (streamEnded st s) := by
  rw [offer_last slot request small ends, releasePin_plain (by exact fun waits => absurd waits other)]
  rfl

/-- Another chunk follows: its read is asked for. -/
theorem offer_more {cur : ArrayOp} (h : Running s cur) (slot : SlotOpen s)
    (request : s.engine.request = some q) (small : st.sent ≤ 4096) (more : 240 < st.length - st.sent) :
    offerChunk (chunkHeld st data s) =
      replied (chunkOut q st (st.sent + if st.sent = 0 then 16384 else 0) data) { s with
        ctrl := { s.ctrl with cur := some (.chunkRead st.loc true) }
        engine := { s.engine with
          stream := some { st with sent := st.sent + 240, chunk := none } } } := by
  have goes := offerChunk_more (s := chunkHeld st data s) (q := q)
    (st := { st with chunk := some data }) (data := data) ⟨slot.slot, slot.quiet⟩ request rfl rfl more
  rw [goes, chunkOut_eq q (by exact small), ask_rest h (by rfl) (by simp)]
  rfl

end

/-- Settles O45: a read offers its chunk to the reply queue, whose slot, whose LAST flag and whose pin tell
the cases apart. -/
theorem chunksFollowTheReads : Obligations.ChunksFollowTheReads := by
  refine ⟨fun s st q r h slot request stream start stands whole bounded other => ?_,
    fun s st q r h request stream later inside stands whole bounded other => ?_,
    fun s st q r c op read h slot request stream stands whole bounded ends waits victim => ?_⟩
  · have next := exec_read_offers (.inl ⟨rfl, rfl, start⟩) h request stream stands
    have small : st.sent ≤ 4096 := by omega
    refine ⟨fun ends => ?_, fun more => ?_⟩
    · have data : chunkData r.value st.sent st.length = r.value := by
        rw [whole, chunkData_last _ (by omega), start, List.drop_zero]
      rw [next, offer_last_plain slot request small (by omega) other, data, start]
      rfl
    · have data : chunkData r.value st.sent st.length = r.value.take 240 := by
        rw [whole, chunkData_more _ (by omega), start, List.drop_zero]
      rw [next, offer_more h slot request small (by omega), data, start]
      rfl
  · have next := exec_read_offers (.inr ⟨rfl, rfl⟩) h request stream stands
    have small : st.sent ≤ 4096 := by omega
    have unflagged : (if st.sent = 0 then 16384 else 0) = 0 := if_neg (by omega)
    refine ⟨fun slot ends => ?_, fun slot more => ?_, fun full => ?_⟩
    · have data : chunkData r.value st.sent st.length = r.value.drop st.sent := by
        rw [whole, chunkData_last _ (by omega)]
      rw [next, offer_last_plain slot request small ends other, unflagged, data]
      rfl
    · have data : chunkData r.value st.sent st.length = (r.value.drop st.sent).take 240 := by
        rw [whole, chunkData_more _ (by omega)]
      rw [next, offer_more h slot request small more, unflagged, data]
      rfl
    · rw [next, offerChunk_full (by exact decide_eq_false (Nat.not_lt.2 full))]
      rfl
  · have kind : ReadOf st c op := read.imp_right fun ⟨isChunk, isRead, _⟩ => ⟨isChunk, isRead⟩
    have small : st.sent ≤ 4096 := by
      rcases read with ⟨_, _, start⟩ | ⟨_, _, _, inside⟩ <;> omega
    have next := exec_read_offers kind h request stream stands
    have data : chunkData r.value st.sent st.length = r.value.drop st.sent := by
      rw [whole, chunkData_last _ (by omega)]
    rw [data, offer_last slot request small ends] at next
    refine ⟨fun sound => ?_, fun suspect room due => ?_⟩
    · rw [next, releasePin_erases (by exact waits) (by exact victim) (by exact sound),
        ask_rest h (by rfl) (by simp)]
      rfl
    · rw [next, releasePin_retires (by exact waits) (by exact victim) (by exact suspect)]
      exact congrArg _ (retireVictim_idle h rfl .suspect
        ⟨by simp [replied]; omega, slot.quiet⟩ rfl rfl due)

end Sys2Proof.Machine
end

section
/-!
PROOFS. The completion of a PUT's or DELETE's record outside a group (R12, R13, R52, R55, R70): O46, with
what the completions of the engine's other records share with it.
-/

namespace Sys2Proof.Machine

open Sys2Proof

/-! ## A record's program ends -/

/-- The record stands in the array, and the controller is at rest. -/
def programmed (loc : Loc) (r : Record) (s : State) : State :=
  { s with array := written loc r s.array, ctrl := s.ctrl.rest }

theorem exec_recordProgramDone_of_running {s : State} {loc : Loc} {r : Record}
    (h : Running s (.programRecord loc r)) (ok : Bool) :
    exec (.recordProgramDone ok) s = .next (recordProgramDoneEffect ok s) :=
  congrArg _ (if_pos h.runs)

/-- The claim, the reply, the end of the grant, the thresholds, the next grant, and a FORMAT's next
rewrite, in this order (R52; log 26). -/
theorem exec_engine_programmed {s : State} {j : Job} {q : Request} {r : Record} {loc : Loc}
    (h : Programming s j q r loc) :
    exec (.recordProgramDone true) s = .next
      (engineNext j r (grantNext (backgroundEvent (endGrant
        (engineReply j r (programmed loc r s) (engineClaim j r loc (programmed loc r s))))))) := by
  obtain ⟨g, grant, engine, same⟩ := h.grant
  have ends : completeOp (writeSlot loc r true s) = programmed loc r s :=
    completeOp_running h.running rfl
  have granted : (programmed loc r s).log.grant = some g := grant
  have job : (programmed loc r s).engine.job = some j := h.job
  rw [exec_recordProgramDone_of_running h.running]
  unfold recordProgramDoneEffect
  rw [h.running.cur]
  dsimp only
  rw [if_pos rfl, ends, granted]
  dsimp only
  rw [if_pos rfl, engine]
  dsimp only
  unfold engineProgrammed
  rw [job]
  dsimp only
  rw [same]

/-! ## The claims on the directory (R12, R13) -/

/-- The segment table without the live bytes of the value that a name's entry names. -/
def segsWithout (dir : List Entry) (ns : Nat) (key : Bytes) (segs : List SegEntry) : List SegEntry :=
  match lookup dir ns key with
  | some e =>
    match e.state with
    | .live length => deadened e.loc.seg (recordSize e.key.length length) segs
    | .buried => segs
  | none => segs

theorem dropPrevious_eq (ns : Nat) (key : Bytes) (s : State) :
    dropPrevious ns key s =
      { s with log := { s.log with segs := segsWithout s.dir ns key s.log.segs } } := by
  unfold dropPrevious segsWithout
  cases lookup s.dir ns key with
  | none => rfl
  | some e =>
    dsimp only
    unfold Entry.isLive Entry.recordSize Entry.length
    cases e.state <;> rfl

theorem erasedCount_segsWithout (dir : List Entry) (ns : Nat) (key : Bytes) (segs : List SegEntry) :
    erasedCount (segsWithout dir ns key segs) = erasedCount segs := by
  unfold segsWithout
  split
  · split
    · exact erasedCount_deadened _ _ _
    · rfl
  · rfl

theorem putCompletion_eq (ns : Nat) (key : Bytes) (sn length : Nat) (loc : Loc) (counted : Bool)
    (s : State) :
    putCompletion ns key sn length loc counted s = { s with
      dir := dirPut s.dir
        { ns := ns, key := key, state := .live length, version := sn, loc := loc }
      log := { s.log with
        segs := if counted then segsWithout s.dir ns key s.log.segs
          else livened loc.seg (recordSize key.length length)
            (segsWithout s.dir ns key s.log.segs) } } := by
  unfold putCompletion
  rw [dropPrevious_eq]
  cases counted <;> rfl

theorem deleteCompletion_eq (ns : Nat) (key : Bytes) (sn : Nat) (loc : Loc) (counted : Bool)
    (s : State) :
    deleteCompletion ns key sn loc counted s = { s with
      dir := dirPut s.dir { ns := ns, key := key, state := .buried, version := sn, loc := loc }
      log := { s.log with
        segs := if counted then
            deadened loc.seg (recordSize key.length 0) (segsWithout s.dir ns key s.log.segs)
          else segsWithout s.dir ns key s.log.segs } } := by
  unfold deleteCompletion
  rw [dropPrevious_eq]
  cases counted <;> rfl

/-! ## The reply of a PUT or DELETE (R155) -/

/-- The OK reply is queued, or omitted in QUIET mode. -/
def endedOk (q : Request) (payload : Bytes) (s : State) : State :=
  if q.mode = .quiet then { s with engine := s.engine.toIdle } else concluded q .ok payload s

theorem endRequest_endedOk {s : State} {q : Request} (slot : SlotOpen s)
    (unbroken : s.engine.breaking = none) (request : s.engine.request = some q)
    (omits : q.kind = kPut ∨ q.kind = kDelete) (payload : Bytes) :
    endRequest .ok payload s = endedOk q payload s := by
  have kind : (decide (q.kind = kPut) || decide (q.kind = kDelete) || decide (q.kind = kSelect)) = true := by
    rcases omits with kind | kind <;> rw [kind] <;> rfl
  unfold endedOk
  split_ifs with quiet
  · exact endRequest_omits unbroken request _ _ (by rw [omitted, kind, quiet]; rfl)
  · exact endRequest_concludes slot unbroken request _ _ (by simp [omitted, quiet])

/-! ## What follows the reply (R55, R70) -/

theorem NothingDue.carries {s u : State} {dir : List Entry} (h : NothingDue s dir)
    (engine : u.log.engineWaits = s.log.engineWaits) (copy : u.log.copyWaits = s.log.copyWaits)
    (foreground : u.reclaim.foreground = s.reclaim.foreground)
    (background : u.reclaim.background = s.reclaim.background)
    (tidy : u.reclaim.tidyRemaining = s.reclaim.tidyRemaining)
    (erased : erasedCount u.log.segs = erasedCount s.log.segs) : NothingDue u dir :=
  ⟨engine.trans h.engine, copy.trans h.copy, foreground.trans h.foreground,
    background.trans h.background, tidy.trans h.tidy, by rw [erased]; exact h.erased, h.buried⟩

/-- With nothing due nothing follows the reply. -/
theorem grantNext_backgroundEvent {u : State} (due : NothingDue u u.dir) :
    grantNext (backgroundEvent u) = u := by
  rw [backgroundEvent_nothingDue due, grantNext_nothingWaits due.engine due.copy]

/-- The copy in hand is granted the free append point, and placed where it fits the head (R51, R55). -/
theorem attemptCopy_asks {s : State} {c : Copy} {x : Record} {head : Nat}
    (copy : s.reclaim.copy = some c) (buffer : c.buffer = some x) (ready : s.log.device = .ready)
    (isHead : headOf s.log.segs = some head) (sound : (segAt s.log.segs head).suspect = false)
    (fits : (segAt s.log.segs head).used + x.size ≤ 16320) :
    attemptCopy s =
      ask (.programRecord { seg := head, off := 64 + (segAt s.log.segs head).used }
        { x with tagged := copyTag s x }) (copyGranted c x head s.ctrl s) := by
  have fit : fitsHead s.log.segs x.size = true := by
    simp only [fitsHead, headFree, isHead, sound, Config.recordArea]
    simp only [Bool.not_false, Bool.true_and, decide_eq_true_eq]
    omega
  have placed : attemptCopyWith x false { s with log := { s.log with copyWaits := false } } =
      placeAt (Grant.ofCopy x false) head { s with log := { s.log with copyWaits := false } } := by
    unfold attemptCopyWith placeOrOpen
    dsimp only
    rw [if_neg (by exact not_not.2 ready), if_pos (by exact .inl fit), isHead]
    dsimp only
    exact if_pos fit
  cases c
  cases buffer
  unfold attemptCopy
  dsimp only
  rw [copy]
  dsimp only
  rw [placed]
  unfold placeAt copyPlaced
  dsimp only [Grant.ofCopy, occupy, modSeg]
  rw [copy]
  rfl

/-- A copy that waits is granted the append point that falls free, and placed (R55). -/
theorem grantNext_copies {s : State} {c : Copy} {x : Record} {head : Nat} (free : s.log.grant = none)
    (ready : s.log.device = .ready) (engine : s.log.engineWaits = false) (waits : s.log.copyWaits = true)
    (copy : s.reclaim.copy = some c) (buffer : c.buffer = some x)
    (isHead : headOf s.log.segs = some head) (sound : (segAt s.log.segs head).suspect = false)
    (fits : (segAt s.log.segs head).used + x.size ≤ 16320) {cur : ArrayOp} {r : State}
    (h : Running r cur) (rests : s.ctrl = r.ctrl.rest) :
    grantNext s = copyGranted c x head
      { r.ctrl with cur := some (.programRecord
          { seg := head, off := 64 + (segAt s.log.segs head).used } { x with tagged := copyTag s x }) }
      s := by
  unfold grantNext
  rw [if_neg (by simp [free, ready]), if_neg (by simp [engine]), if_neg (by simp [engine]), if_pos waits,
    attemptCopy_asks copy buffer ready isHead sound fits, ask_rest h (by exact rests) (by simp)]
  exact if_neg (by simp [copyGranted])

/-! ## O46 -/

/-- The claim of a PUT or DELETE outside a group, over this directory and this table. -/
def recordClaimed (loc : Loc) (r : Record) (dir : List Entry) (segs : List SegEntry) (s : State) : State :=
  { programmed loc r s with dir := dir, log := { s.log with segs := segs } }

/-- The request has its reply, and the grant has ended. -/
theorem endGrant_endedOk (q : Request) (payload : Bytes) (s : State) :
    endGrant (endedOk q payload s) = endedOk q payload (endGrant s) := by
  unfold endedOk
  split_ifs <;> rfl

theorem endedOk_dir (q : Request) (payload : Bytes) (s : State) : (endedOk q payload s).dir = s.dir := by
  unfold endedOk
  split_ifs <;> rfl

theorem endedOk_log (q : Request) (payload : Bytes) (s : State) : (endedOk q payload s).log = s.log := by
  unfold endedOk
  split_ifs <;> rfl

theorem endedOk_reclaim (q : Request) (payload : Bytes) (s : State) :
    (endedOk q payload s).reclaim = s.reclaim := by
  unfold endedOk
  split_ifs <;> rfl

theorem endedOk_ctrl (q : Request) (payload : Bytes) (s : State) : (endedOk q payload s).ctrl = s.ctrl := by
  unfold endedOk
  split_ifs <;> rfl

theorem endedOk_group (q : Request) (payload : Bytes) (s : State) :
    (endedOk q payload s).group = s.group := by
  unfold endedOk
  split_ifs <;> rfl

/-- The tag of a copy depends on the group alone. -/
theorem copyTag_congr {s t : State} (same : s.group = t.group) (x : Record) :
    copyTag s x = copyTag t x := by
  unfold copyTag
  rw [same]

/-- A PUT or DELETE whose claim left `u`. -/
theorem exec_record_programmed {s u : State} {j : Job} {q : Request} {r : Record} {loc : Loc}
    (h : Programming s j q r loc)
    (kind : (∃ b, j.purpose = .put b) ∧ q.kind = kPut ∨ j.purpose = .delete ∧ q.kind = kDelete)
    (claim : engineClaim j r loc (programmed loc r s) = u) (engine : u.engine = s.engine)
    (replies : u.replies = s.replies) (notices : u.notices = s.notices) :
    exec (.recordProgramDone true) s =
      .next (grantNext (backgroundEvent (endedOk q (le 4 r.sn) (endGrant u)))) := by
  have ended : endRequest .ok (le 4 r.sn) u = endedOk q (le 4 r.sn) u :=
    endRequest_endedOk ⟨by rw [replies]; exact h.slot.slot, by rw [notices]; exact h.slot.quiet⟩
      (by rw [engine]; exact h.unbroken) (by rw [engine]; exact h.request)
      (kind.imp And.right And.right) _
  rw [exec_engine_programmed h, claim, ← endGrant_endedOk, ← ended]
  unfold engineReply engineNext
  rcases kind with ⟨⟨b, purpose⟩, _⟩ | ⟨purpose, _⟩ <;> rw [purpose]

theorem engineClaim_put {s : State} {j : Job} {r : Record} {loc : Loc} {b : Bool}
    (purpose : j.purpose = .put b) (untagged : r.tagged = false) :
    engineClaim j r loc (programmed loc r s) = recordClaimed loc r
      (dirPut s.dir
        { ns := r.ns, key := r.key, state := .live r.value.length, version := r.sn, loc := loc })
      (livened loc.seg r.size (segsWithout s.dir r.ns r.key s.log.segs)) s := by
  unfold engineClaim
  rw [purpose]
  dsimp only
  rw [untagged, if_neg Bool.false_ne_true, putCompletion_eq]
  rfl

theorem engineClaim_delete {s : State} {j : Job} {r : Record} {loc : Loc}
    (purpose : j.purpose = .delete) (untagged : r.tagged = false) :
    engineClaim j r loc (programmed loc r s) = recordClaimed loc r
      (dirPut s.dir { ns := r.ns, key := r.key, state := .buried, version := r.sn, loc := loc })
      (segsWithout s.dir r.ns r.key s.log.segs) s := by
  unfold engineClaim
  rw [purpose]
  dsimp only
  rw [untagged, if_neg Bool.false_ne_true, deleteCompletion_eq]
  rfl

/-- With nothing due the request's end is all that follows. -/
theorem endedOk_nothingDue {s u : State} {q : Request} {payload : Bytes} {dir : List Entry}
    (due : NothingDue s dir) (same : u.dir = dir)
    (log : u.log.engineWaits = s.log.engineWaits ∧ u.log.copyWaits = s.log.copyWaits)
    (reclaim : u.reclaim = s.reclaim) (erased : erasedCount u.log.segs = erasedCount s.log.segs) :
    grantNext (backgroundEvent (endedOk q payload u)) = endedOk q payload u := by
  refine grantNext_backgroundEvent ?_
  rw [endedOk_dir, same]
  exact due.carries (by rw [endedOk_log, log.1]) (by rw [endedOk_log, log.2])
    (by rw [endedOk_reclaim, reclaim]) (by rw [endedOk_reclaim, reclaim])
    (by rw [endedOk_reclaim, reclaim]) (by rw [endedOk_log, erased])

/-- The thresholds are tested behind the reply. -/
theorem testBackground_endedOk (q : Request) (payload : Bytes) (u : State) :
    testBackground (endedOk q payload u) = endedOk q payload (flagTested u.log.segs u.dir u) := by
  rw [testBackground_flagTested, endedOk_log, endedOk_dir]
  unfold endedOk
  split_ifs <;> rfl

/-- Settles O46: the claim, then the reply, and what the thresholds and the arbiter do behind it. -/
theorem completionsChangeTheDirectory : Obligations.CompletionsChangeTheDirectory := by
  refine ⟨?_, ?_, ?_⟩
  · intro s j q r loc reserved h purpose untagged kind
    refine ⟨fun due => ?_, fun ns key => lookup_dirPut _ _ _ _⟩
    rw [exec_record_programmed h (.inl ⟨⟨_, purpose⟩, kind⟩) (engineClaim_put purpose untagged) rfl rfl
        rfl,
      endedOk_nothingDue (s := s) due (by rfl) (by exact ⟨rfl, rfl⟩) (by rfl)
        (by exact (erasedCount_livened _ _ _).trans (erasedCount_segsWithout _ _ _ _))]
    rfl
  · intro s j q r loc h purpose untagged kind
    refine ⟨fun due => ?_, fun ns key => lookup_dirPut _ _ _ _⟩
    rw [exec_record_programmed h (.inr ⟨purpose, kind⟩) (engineClaim_delete purpose untagged) rfl rfl rfl,
      endedOk_nothingDue (s := s) due (by rfl) (by exact ⟨rfl, rfl⟩) (by rfl)
        (by exact erasedCount_segsWithout _ _ _ _)]
    rfl
  · intro s j q r loc reserved h purpose untagged kind engine dir moved segs done ended after
    have next := exec_record_programmed h (.inl ⟨⟨_, purpose⟩, kind⟩)
      (engineClaim_put purpose untagged) rfl rfl rfl
    have tested : testBackground (endedOk q (le 4 r.sn) (endGrant (recordClaimed loc r dir segs s))) =
        ended := testBackground_endedOk _ _ _
    have same : ended = endedOk q (le 4 r.sn) done := rfl
    have weighed : exec (.recordProgramDone true) s = .next (grantNext (weighPass ended)) := by
      rw [← tested]
      exact next
    clear_value ended
    subst same
    have log : (endedOk q (le 4 r.sn) done).log = done.log := endedOk_log _ _ _
    have reclaim : (endedOk q (le 4 r.sn) done).reclaim = done.reclaim := endedOk_reclaim _ _ _
    have ctrl : (endedOk q (le 4 r.sn) done).ctrl = s.ctrl.rest := endedOk_ctrl _ _ _
    refine ⟨fun none_ busy => ?_, fun w none_ idle ready flag victim => ?_,
      fun c x head waits busy ready copy buffer isHead sound fits => ?_⟩
    · rw [weighPass_busy (by rw [reclaim]; exact busy),
        grantNext_nothingWaits (by rw [log]; exact engine) (by rw [log]; exact none_)] at weighed
      exact weighed
    · rw [weighPass_begins (w := w) (by rw [reclaim]; exact idle) (by rw [log]; exact ready)
        (.inr (.inr (by rw [reclaim]; exact flag))) (by rw [log]; exact victim),
        ask_rest h.running (by exact ctrl) (by simp),
        grantNext_nothingWaits (by exact (congrArg Log.engineWaits log).trans engine)
          (by exact (congrArg Log.copyWaits log).trans none_)] at weighed
      exact weighed
    · have segsOf : (endedOk q (le 4 r.sn) done).log.segs = segs := congrArg Log.segs log
      rw [weighPass_busy (by rw [reclaim]; exact busy),
        grantNext_copies (x := x) (head := head) (by exact congrArg Log.grant log)
          (by exact (congrArg Log.device log).trans ready)
          (by exact (congrArg Log.engineWaits log).trans engine)
          (by exact (congrArg Log.copyWaits log).trans waits)
          (by exact (congrArg Reclaim.copy reclaim).trans copy) buffer (by rw [segsOf]; exact isHead)
          (by rw [segsOf]; exact sound) (by rw [segsOf]; exact fits) h.running ctrl, segsOf] at weighed
      rw [copyTag_congr (s := endedOk q (le 4 r.sn) done) (t := s) (by exact endedOk_group _ _ _)] at weighed
      exact weighed

end Sys2Proof.Machine
end

section
/-!
PROOFS. Staged records and the COMMIT that applies them (R94, R95, R100): O47.
-/

namespace Sys2Proof.Machine

open Sys2Proof

/-! ## A record is staged -/

/-- The segment table without the live bytes of the CURRENT entry of a name. -/
def segsSuperseded (list : List Pending) (ns : Nat) (key : Bytes) (segs : List SegEntry) : List SegEntry :=
  match list.find? fun p => decide (p.standing = .current ∧ p.ns = ns ∧ p.key = key) with
  | some p => deadened p.loc.seg (recordSize p.key.length p.length) segs
  | none => segs

theorem stage_eq (p : Pending) (s : State) :
    stage p s = { s with
      group := { s.group with
        list := modCurrent p.ns p.key (fun q => { q with standing := .superseded }) s.group.list ++ [p] }
      log := { s.log with
        segs := livened p.loc.seg p.recordSize
          (segsSuperseded s.group.list p.ns p.key s.log.segs) } } := by
  unfold stage segsSuperseded currentPending
  cases s.group.list.find? fun q => decide (q.standing = .current ∧ q.ns = p.ns ∧ q.key = p.key) <;> rfl

theorem erasedCount_segsSuperseded (list : List Pending) (ns : Nat) (key : Bytes) (segs : List SegEntry) :
    erasedCount (segsSuperseded list ns key segs) = erasedCount segs := by
  unfold segsSuperseded
  split
  · exact erasedCount_deadened _ _ _
  · rfl

theorem engineClaim_tagged {s : State} {j : Job} {r : Record} {loc : Loc}
    (purpose : (∃ b, j.purpose = .put b) ∨ j.purpose = .delete) (tagged : r.tagged = true) :
    engineClaim j r loc s = stage (stagedEntry r loc) s := by
  unfold engineClaim
  rcases purpose with ⟨b, purpose⟩ | purpose <;> rw [purpose] <;> exact if_pos tagged

/-! ## A COMMIT is applied -/

/-- One pending operation on the directory and the segment table (R12 to R14). -/
def applyOne (x : List Entry × List SegEntry) (p : Pending) : List Entry × List SegEntry :=
  let segs := segsWithout x.1 p.ns p.key x.2
  (dirPut x.1
      { ns := p.ns, key := p.key, state := if p.isPut then .live p.length else .buried
        version := p.sn, loc := p.loc },
    if p.isPut then
      (if p.standing = .current then segs
      else livened p.loc.seg (recordSize p.key.length p.length) segs)
    else if p.standing = .current then deadened p.loc.seg (recordSize p.key.length 0) segs
    else segs)

theorem applyPending_eq (list : List Pending) (s : State) :
    applyPending list s = { s with
      dir := (list.foldl applyOne (s.dir, s.log.segs)).1
      log := { s.log with segs := (list.foldl applyOne (s.dir, s.log.segs)).2 } } := by
  induction list generalizing s with
  | nil => rfl
  | cons p rest ih =>
    have one : (if p.isPut then
          putCompletion p.ns p.key p.sn p.length p.loc (decide (p.standing = .current)) s
        else deleteCompletion p.ns p.key p.sn p.loc (decide (p.standing = .current)) s) = { s with
          dir := (applyOne (s.dir, s.log.segs) p).1
          log := { s.log with segs := (applyOne (s.dir, s.log.segs) p).2 } } := by
      unfold applyOne
      cases p.isPut with
      | true => rw [if_pos rfl, putCompletion_eq]; simp
      | false => rw [if_neg Bool.false_ne_true, deleteCompletion_eq]; simp
    unfold applyPending
    dsimp only
    rw [one, ih]
    rfl

theorem erasedCount_applyOne (x : List Entry × List SegEntry) (p : Pending) :
    erasedCount (applyOne x p).2 = erasedCount x.2 := by
  unfold applyOne
  dsimp only
  split_ifs
  · exact erasedCount_segsWithout _ _ _ _
  · rw [erasedCount_livened, erasedCount_segsWithout]
  · rw [erasedCount_deadened, erasedCount_segsWithout]
  · exact erasedCount_segsWithout _ _ _ _

theorem erasedCount_applied (list : List Pending) (x : List Entry × List SegEntry) :
    erasedCount (list.foldl applyOne x).2 = erasedCount x.2 := by
  induction list generalizing x with
  | nil => rfl
  | cons p rest ih => exact (ih (applyOne x p)).trans (erasedCount_applyOne x p)

theorem hasLost_eq_false {s : State} (whole : ∀ p ∈ s.group.list, p.standing ≠ .lost) :
    hasLost s = false := by
  unfold hasLost
  rw [List.any_eq_false]
  intro p mem
  simpa using whole p mem

/-- The state that a commit application leaves (R100). -/
def committed (loc : Loc) (r : Record) (s : State) : State :=
  let applied := s.group.list.foldl applyOne (s.dir, s.log.segs)
  { programmed loc r s with
    dir := applied.1
    group := State.reset.group
    log := { s.log with segs := applied.2 }
    reclaim := s.reclaim.ownerToDirectory }

/-- A COMMIT marker is programmed, and no staged record is lost. -/
theorem exec_commit_programmed {s : State} {j : Job} {q : Request} {r : Record} {loc : Loc}
    (h : Programming s j q r loc) (purpose : j.purpose = .commit) (kind : q.kind = 0x11)
    (whole : ∀ p ∈ s.group.list, p.standing ≠ .lost) :
    exec (.recordProgramDone true) s = .next (grantNext (backgroundEvent
      (concluded q .ok (le 4 r.sn ++ [BitVec.ofNat 8 s.group.list.length])
        (endGrant (committed loc r s))))) := by
  have lost : hasLost (programmed loc r s) = false := hasLost_eq_false (s := programmed loc r s) whole
  have claim : engineClaim j r loc (programmed loc r s) = committed loc r s := by
    unfold engineClaim
    rw [purpose]
    dsimp only
    rw [lost, if_neg Bool.false_ne_true, commitApplication, applyPending_eq]
    rfl
  have reply : engineReply j r (programmed loc r s) (committed loc r s) =
      concluded q .ok (le 4 r.sn ++ [BitVec.ofNat 8 s.group.list.length]) (committed loc r s) := by
    unfold engineReply
    rw [purpose]
    dsimp only
    rw [lost, if_neg Bool.false_ne_true]
    exact endRequest_concludes (s := committed loc r s) ⟨h.slot.slot, h.slot.quiet⟩ h.unbroken h.request
      _ _ (omitted_eq_false (by rw [kind]; decide) _ _)
  rw [exec_engine_programmed h, claim, reply]
  unfold engineNext
  rw [purpose]
  rfl

/-- With no group a copy has no tag (R76). -/
theorem copyTag_noGroup {s : State} (none_ : s.group.state = .noGroup) (x : Record) :
    copyTag s x = false := by
  unfold copyTag
  rw [none_]
  simp

/-- Settles O47: the claim of a tagged record is `stage`, that of a COMMIT marker `applyPending`. -/
theorem stagedRecordsAreCommitted : Obligations.StagedRecordsAreCommitted := by
  refine ⟨?_, ?_⟩
  · intro s j q r loc h kind tagged due
    have purpose : (∃ b, j.purpose = .put b) ∨ j.purpose = .delete := by
      rcases kind with ⟨purpose, _⟩ | ⟨b, purpose, _⟩
      · exact .inr purpose
      · exact .inl ⟨b, purpose⟩
    have sort : (∃ b, j.purpose = .put b) ∧ q.kind = kPut ∨ j.purpose = .delete ∧ q.kind = kDelete := by
      rcases kind with ⟨purpose, kind⟩ | ⟨b, purpose, kind⟩
      · exact .inr ⟨purpose, kind⟩
      · exact .inl ⟨⟨b, purpose⟩, kind⟩
    rw [exec_record_programmed h sort ((engineClaim_tagged purpose tagged).trans (stage_eq _ _)) rfl rfl rfl,
      endedOk_nothingDue (s := s) due (by rfl) (by exact ⟨rfl, rfl⟩) (by rfl)
        (by exact (erasedCount_livened _ _ _).trans (erasedCount_segsSuperseded _ _ _ _))]
    rfl
  · intro s j q r loc h purpose kind whole entryOf apply applied ended
    have next := exec_commit_programmed h purpose kind whole
    have count : erasedCount applied.2 = erasedCount s.log.segs := erasedCount_applied _ _
    refine ⟨fun due => ?_, fun c x head engine waits ready busy copy owner unplaced buffer isHead sound
      fits => ?_⟩
    · rw [next, grantNext_backgroundEvent (by
        exact due.carries rfl rfl rfl rfl rfl count)]
      rfl
    · have tested : testBackground (concluded q .ok
          (le 4 r.sn ++ [BitVec.ofNat 8 s.group.list.length]) (endGrant (committed loc r s))) =
          flagTested applied.2 applied.1 (concluded q .ok
            (le 4 r.sn ++ [BitVec.ofNat 8 s.group.list.length]) (endGrant (committed loc r s))) :=
        testBackground_flagTested _
      have owned : s.reclaim.ownerToDirectory.copy = some { c with owner := .directory } := by
        simp [Reclaim.ownerToDirectory, copy, owner, unplaced]
      rw [next, backgroundEvent, tested, weighPass_busy (by exact busy),
        grantNext_copies (c := { c with owner := .directory }) (x := x) (head := head) (by rfl)
          (by exact ready) (by exact engine)
          (by exact waits) (by exact owned) buffer isHead sound fits h.running (by rfl),
        copyTag_noGroup (s := flagTested _ _ _) (by rfl)]
      rfl

end Sys2Proof.Machine
end

section
/-!
PROOFS. Settings writes and the settings rewrites of a FORMAT (R18, R65, R129): O48 and O49.
-/

namespace Sys2Proof.Machine

open Sys2Proof

/-! ## A settings write -/

/-- The segment table without the live bytes of a setting's record. -/
def segsUnset (settings : List Setting) (id : Byte) (segs : List SegEntry) : List SegEntry :=
  match settingOf settings id with
  | some old => deadened old.loc.seg (recordSize 1 old.value.length) segs
  | none => segs

theorem erasedCount_segsUnset (settings : List Setting) (id : Byte) (segs : List SegEntry) :
    erasedCount (segsUnset settings id segs) = erasedCount segs := by
  unfold segsUnset
  split
  · exact erasedCount_deadened _ _ _
  · rfl

theorem settingsWrite_eq (t : Setting) (s : State) :
    settingsWrite t s = { s with
      prot := { s.prot with settings := settingsPut s.prot.settings t }
      log := { s.log with
        segs := livened t.loc.seg t.recordSize (segsUnset s.prot.settings t.id s.log.segs) } } := by
  unfold settingsWrite segsUnset
  cases settingOf s.prot.settings t.id <;> rfl

/-- The setting `id` stands with the record just programmed (R129). -/
def settingWritten (id : Byte) (loc : Loc) (r : Record) (s : State) : State :=
  { programmed loc r s with
    prot := { s.prot with
      settings := settingsPut s.prot.settings { id := id, value := r.value, sn := r.sn, loc := loc } }
    log := { s.log with
      segs := livened loc.seg r.size (segsUnset s.prot.settings id s.log.segs) } }

theorem engineClaim_setting {s : State} {j : Job} {r : Record} {loc : Loc} {id : Byte}
    (purpose : j.purpose = .setting ∨ ∃ marker done rest, j.purpose = .formatRewrite marker done rest)
    (key : r.key = [id]) :
    engineClaim j r loc (programmed loc r s) = settingWritten id loc r s := by
  have claim : engineClaim j r loc (programmed loc r s) =
      settingsWrite (writtenSetting r loc) (programmed loc r s) := by
    unfold engineClaim
    rcases purpose with purpose | ⟨marker, done, rest, purpose⟩ <;> rw [purpose]
  have size : r.size = recordSize 1 r.value.length := by rw [Record.size, key]; rfl
  rw [claim, settingsWrite_eq, settingWritten, size, writtenSetting, key]
  rfl

/-- A settings write or rewrite with nothing due after it, which changed nothing else that counts. -/
theorem settingWritten_quiet {s u : State} {id : Byte} {loc : Loc} {r : Record}
    (due : NothingDue s s.dir) (dir : u.dir = s.dir) (log : u.log = (endGrant (settingWritten id loc r s)).log)
    (reclaim : u.reclaim = s.reclaim) : grantNext (backgroundEvent u) = u := by
  have erased : erasedCount (settingWritten id loc r s).log.segs = erasedCount s.log.segs :=
    (erasedCount_livened _ _ _).trans (erasedCount_segsUnset _ _ _)
  refine grantNext_backgroundEvent ?_
  rw [dir]
  exact due.carries (by rw [log]; rfl) (by rw [log]; rfl) (by rw [reclaim]) (by rw [reclaim])
    (by rw [reclaim]) (by rw [log]; exact erased)

/-- A settings write is programmed: the setting stands, and the request's rule gives the reply. -/
theorem exec_setting_programmed {s : State} {j : Job} {q : Request} {r : Record} {loc : Loc} {id : Byte}
    (h : Programming s j q r loc) (purpose : j.purpose = .setting) (key : r.key = [id])
    (due : NothingDue s s.dir) (other : q.kind ∉ [kPut, kDelete, kSelect]) :
    exec (.recordProgramDone true) s = .next
      (concluded q .ok (settingReply q.kind r (settingWritten id loc r s))
        (endGrant (settingWritten id loc r s))) := by
  have request : (settingWritten id loc r s).engine.request = some q := h.request
  have reply : engineReply j r (programmed loc r s) (settingWritten id loc r s) =
      concluded q .ok (settingReply q.kind r (settingWritten id loc r s))
        (settingWritten id loc r s) := by
    unfold engineReply
    rw [purpose]
    dsimp only
    rw [request]
    exact endRequest_concludes (s := settingWritten id loc r s) ⟨h.slot.slot, h.slot.quiet⟩ h.unbroken
      request _ _ (omitted_eq_false other _ _)
  rw [exec_engine_programmed h, engineClaim_setting (.inl purpose) key, reply,
    settingWritten_quiet (id := id) (loc := loc) (r := r) due (by rfl) (by rfl) (by rfl)]
  unfold engineNext
  rw [purpose]
  rfl

/-- The setting just written is the one in force. -/
theorem settingOf_settingWritten (id : Byte) (loc : Loc) (r : Record) (s : State) :
    settingOf (settingWritten id loc r s).prot.settings id =
      some { id := id, value := r.value, sn := r.sn, loc := loc } :=
  (settingOf_settingsPut _ _ _).trans (if_pos rfl)

theorem idLimit_ns {n : Nat} (small : n < 8) : (0x10 + BitVec.ofNat 8 n : Byte).toNat - 0x10 = n := by
  have sixteen : BitVec.toNat (0x10 : Byte) = 16 := rfl
  rw [BitVec.toNat_add, BitVec.toNat_ofNat, sixteen]
  omega

/-- Settles O48: the reply reads the table after the write. -/
theorem settingsWriteTakesEffect : Obligations.SettingsWriteTakesEffect := by
  intro s j q r loc id value h purpose key sameValue due setting settings segs done reports
  subst sameValue
  have inForce := settingOf_settingWritten id loc r s
  have reply (other : q.kind ∉ [kPut, kDelete, kSelect]) {payload : Bytes}
      (gives : settingReply q.kind r (settingWritten id loc r s) = payload) : reports payload := by
    have next := exec_setting_programmed h purpose key due other
    rw [gives] at next
    exact next
  refine ⟨fun other => settingOf_settingsPut _ _ _, fun n small kind isId => ?_,
    fun locks kind isId isLocks => ?_, fun kind isId => ?_, fun policy kind isId isPolicy either => ?_,
    fun switches kind isId isSwitches => ?_⟩
  all_goals
    refine reply (by rw [kind]; decide) ?_
    unfold settingReply
    rw [kind]
  · rw [if_pos (by decide), key, isId]
    dsimp only [List.headD_cons]
    rw [idLimit_ns small]
    rfl
  · rw [if_neg (by decide), if_pos (by decide), writeLockedMask, persistentLocks, byteSetting, idLocks,
      ← isId, inForce, isLocks]
    rfl
  · rw [if_neg (by decide), if_neg (by decide), if_pos (by decide), passphraseOf, idPassphrase, ← isId,
      inForce]
    rfl
  · rw [if_neg (by decide), if_neg (by decide), if_neg (by decide), if_pos (by decide), policyOf, idPolicy,
      ← isId, inForce, isPolicy]
    rcases either with plain | passphrase
    · rw [plain]
      rfl
    · rw [passphrase]
      rfl
  · rw [if_neg (by decide), if_neg (by decide), if_neg (by decide), if_neg (by decide), finalSwitches,
      byteSetting, idFinal, ← isId, inForce, isSwitches]
    rfl

/-! ## FORMAT -/

/-- The segment table without the live bytes of a directory's LIVE entries (R18). -/
def segsCleared (dir : List Entry) (segs : List SegEntry) : List SegEntry :=
  (dir.filter fun e => e.isLive).foldl
    (fun segs e => deadened e.loc.seg (recordSize e.key.length e.length) segs) segs

theorem deadenAll_eq (dir : List Entry) (s : State) :
    deadenAll dir s = { s with log := { s.log with segs := segsCleared dir s.log.segs } } := by
  induction dir generalizing s with
  | nil => rfl
  | cons e rest ih =>
    unfold deadenAll segsCleared
    rw [ih]
    by_cases live : e.isLive = true
    · rw [List.filter_cons_of_pos (by exact live), if_pos live]
      rfl
    · rw [List.filter_cons_of_neg (by exact live), if_neg live]
      rfl

theorem erasedCount_foldl_deadened (dir : List Entry) (segs : List SegEntry) :
    erasedCount (dir.foldl
      (fun segs e => deadened e.loc.seg (recordSize e.key.length e.length) segs) segs) =
        erasedCount segs := by
  induction dir generalizing segs with
  | nil => rfl
  | cons e rest ih => exact (ih _).trans (erasedCount_deadened _ _ _)

/-- The directory has been emptied (R18). -/
def formatCleared (loc : Loc) (r : Record) (s : State) : State :=
  { programmed loc r s with
    dir := []
    log := { s.log with segs := segsCleared s.dir s.log.segs } }

theorem engineClaim_format {s : State} {j : Job} {r : Record} {loc : Loc}
    (purpose : j.purpose = .formatMarker) :
    engineClaim j r loc (programmed loc r s) = formatCleared loc r s := by
  unfold engineClaim
  rw [purpose]
  dsimp only
  rw [formatClearing, deadenAll_eq]
  rfl

/-- The next rewrite, of a setting that is present, is handed over and placed at once. -/
theorem nextRewrite_places {u : State} {marker done : Nat} {id : Byte} {rest : List Byte} {t : Setting}
    {head : Nat} (present : settingOf u.prot.settings id = some t)
    (places : PlacesAtOnce u head (recordSize 1 t.value.length)) :
    nextRewrite marker done (id :: rest) u =
      placed { purpose := .formatRewrite marker done rest, record := systemRecord id t.value } head u := by
  unfold nextRewrite
  rw [present]
  exact handOver_places (j := { purpose := .formatRewrite marker done rest
                                record := systemRecord id t.value }) places rfl

/-- Settles O49: the marker's claim empties the directory, and each rewrite's completion hands over the
next. -/
theorem formatClearsThenRewritesSettings : Obligations.FormatClearsThenRewritesSettings := by
  refine ⟨?_, ?_, ?_⟩
  · intro s j q r loc h purpose kind due segs done
    have next := exec_engine_programmed h
    rw [engineClaim_format purpose] at next
    have quiet {u : State} (dir : u.dir = []) (log : u.log = done.log) (reclaim : u.reclaim = s.reclaim) :
        grantNext (backgroundEvent u) = u := by
      refine grantNext_backgroundEvent ?_
      rw [dir]
      exact due.carries (by rw [log]) (by rw [log]) (by rw [reclaim]) (by rw [reclaim]) (by rw [reclaim])
        (by rw [log]; exact erasedCount_foldl_deadened _ _)
    refine ⟨fun none_ => ?_, fun first more head some_ places => ?_⟩
    · have reply : engineReply j r (programmed loc r s) (formatCleared loc r s) =
          concluded q .ok (le 4 r.sn ++ [0x00]) (formatCleared loc r s) := by
        unfold engineReply
        rw [purpose]
        dsimp only
        rw [if_pos (by exact List.isEmpty_iff.2 none_)]
        exact endRequest_concludes (s := formatCleared loc r s) ⟨h.slot.slot, h.slot.quiet⟩ h.unbroken
          h.request _ _ (omitted_eq_false (by rw [kind]; decide) _ _)
      rw [next, reply, quiet (by rfl) (by rfl) (by rfl)]
      unfold engineNext
      rw [purpose]
      dsimp only
      rw [show (endGrant (concluded q .ok (le 4 r.sn ++ [0x00]) (formatCleared loc r s))).prot.settings = []
        from none_]
      rfl
    · have silent : engineReply j r (programmed loc r s) (formatCleared loc r s) = formatCleared loc r s := by
        unfold engineReply
        rw [purpose]
        dsimp only
        exact if_neg (by simp [formatCleared, programmed, some_])
      have rests : endGrant (formatCleared loc r s) = done := rfl
      have settings : done.prot.settings = first :: more := some_
      rw [next, silent, rests, quiet rfl rfl rfl]
      unfold engineNext
      rw [purpose]
      dsimp only
      rw [settings]
      exact congrArg _ (nextRewrite_places (by rw [settings]; simp [settingOf]) places)
  · intro s j q r loc marker rewritten id next rest t head h purpose key due settings segs done present places
    have silent : engineReply j r (programmed loc r s) (settingWritten id loc r s) =
        settingWritten id loc r s := by
      unfold engineReply
      rw [purpose]
      rfl
    have rests : endGrant (settingWritten id loc r s) = done := rfl
    rw [exec_engine_programmed h, engineClaim_setting (.inr ⟨_, _, _, purpose⟩) key, silent,
      settingWritten_quiet (id := id) (loc := loc) (r := r) due (by rfl) (by rfl) (by rfl), rests]
    unfold engineNext
    rw [purpose]
    exact congrArg _ (nextRewrite_places present places)
  · intro s j q r loc marker rewritten id value h purpose kind key sameValue due segs
    subst sameValue
    have reply : engineReply j r (programmed loc r s) (settingWritten id loc r s) =
        concluded q .ok (le 4 marker ++ [BitVec.ofNat 8 (rewritten + 1)]) (settingWritten id loc r s) := by
      unfold engineReply
      rw [purpose]
      dsimp only
      rw [if_pos List.isEmpty_nil]
      exact endRequest_concludes (s := settingWritten id loc r s) ⟨h.slot.slot, h.slot.quiet⟩ h.unbroken
        h.request _ _ (omitted_eq_false (by rw [kind]; decide) _ _)
    rw [exec_engine_programmed h, engineClaim_setting (.inr ⟨_, _, _, purpose⟩) key, reply,
      settingWritten_quiet (id := id) (loc := loc) (r := r) due (by rfl) (by rfl) (by rfl)]
    unfold engineNext
    rw [purpose]
    rfl

end Sys2Proof.Machine
end

section
/-!
PROOFS. A record's failed program, its retry, and the end of an engine record that was not placed (R59, R60,
R98): O50.
-/

namespace Sys2Proof.Machine

open Sys2Proof

/-! ## The end of an engine record -/

theorem failGroup_eq (s : State) : failGroup s = groupFailed s := by
  unfold failGroup groupFailed
  split_ifs <;> rfl

/-- The claim and the foreground need of the engine's record are gone (R57, R60, R69). -/
def unclaimed (s : State) : State :=
  { s with
    log := { s.log with engineWaits := false }
    reclaim := { s.reclaim with foreground := false } }

/-- A record that holds no claim gives up its need alone. -/
theorem unclaimed_eq {s : State} (free : s.log.engineWaits = false) :
    unclaimed s = { s with reclaim := { s.reclaim with foreground := false } } := by
  have log : { s.log with engineWaits := false } = s.log := by rw [← free]
  rw [unclaimed, log]

/-- The engine's record ends with a status other than OK, `u` being what that leaves of the group. -/
theorem endJob_concludes {s u : State} {j : Job} {q : Request} (job : s.engine.job = some j)
    {status : Status} (refused : status ≠ .ok) (payload : j.endPayload = [])
    (effect : jobGroupEffect j status (unclaimed s) = u) (request : u.engine.request = some q)
    (unbroken : u.engine.breaking = none) (slot : SlotOpen u) :
    endJob status s = concluded q status [] u := by
  unfold endJob
  rw [job]
  dsimp only
  rw [show jobGroupEffect j status
    { s with
      log := { s.log with engineWaits := false }
      reclaim := { s.reclaim with foreground := false } } = u from effect, payload]
  exact endRequest_concludes slot unbroken request _ _ (omitted_of_ne_ok _ refused _)

theorem endPayload_nil {j : Job} (first : ∀ marker done left, j.purpose ≠ .formatRewrite marker done left) :
    j.endPayload = [] := by
  unfold Job.endPayload
  cases purpose : j.purpose with
  | formatRewrite marker done left => exact absurd purpose (first marker done left)
  | _ => rfl

/-- A staged operation or a COMMIT that ends NO_SPACE or MEDIA_FAULT fails its group (R98). -/
theorem jobGroupEffect_fails {j : Job} {status : Status}
    (fault : status = .mediaFault ∨ status = .noSpace)
    (purpose : (∃ b, j.purpose = .put b) ∨ j.purpose = .delete ∨ j.purpose = .commit) (s : State) :
    jobGroupEffect j status s = groupFailed s := by
  rw [← failGroup_eq]
  unfold jobGroupEffect
  rcases fault with rfl | rfl <;> rcases purpose with ⟨b, purpose⟩ | purpose | purpose <;> rw [purpose]

/-! ## The segment table under a mark that leaves states and counts alone -/

theorem leastSeg_modify (segs : List SegEntry) (i : Nat) (f : SegEntry → SegEntry) {p : SegEntry → Bool}
    {measure : SegEntry → Nat} (same : ∀ e, p (f e) = p e ∧ measure (f e) = measure e) :
    leastSeg (segs.modify i f) p measure = leastSeg segs p measure := by
  have at_ (k : Nat) : p (segAt (segs.modify i f) k) = p (segAt segs k) ∧
      measure (segAt (segs.modify i f) k) = measure (segAt segs k) := by
    rw [segAt_modify]
    split_ifs
    · exact same _
    · exact ⟨rfl, rfl⟩
  unfold leastSeg
  simp only [List.length_modify, (at_ _).1, (at_ _).2]

theorem chooseHead_modify (segs : List SegEntry) (i : Nat) (f : SegEntry → SegEntry)
    (state : ∀ e, (f e).state = e.state) (count : ∀ e, (f e).eraseCount = e.eraseCount) :
    chooseHead (segs.modify i f) = chooseHead segs :=
  leastSeg_modify segs i f fun e => ⟨by rw [state], count e⟩

/-! ## A failed program -/

/-- The record's first program or its retry has failed: what it left stands, and the head is suspect. -/
def programLeft (loc : Loc) (r : Record) (s : State) : State :=
  { s with
    free := s.free + 1
    array := s.array.modify loc.seg fun a =>
      { a with slots := a.slots ++
          [{ off := loc.off, size := r.size
             record := if Config.failedProgramWhole s.free then some r else none
             residue := if Config.failedProgramWhole s.free then 0 else s.free }] }
    ctrl := s.ctrl.rest
    log := { s.log with segs := s.log.segs.modify loc.seg fun e => { e with suspect := true } } }

theorem exec_program_failed {s : State} {loc : Loc} {r : Record} {g : Grant}
    (h : Running s (.programRecord loc r)) (grant : s.log.grant = some g) :
    exec (.recordProgramDone false) s = .next (grantNext
      (if g.retry then attemptFailed g (programLeft loc r s) else attemptRetry g (programLeft loc r s))) := by
  have ends : completeOp { writeSlot loc r (Config.failedProgramWhole s.free) s with free := s.free + 1 } =
      { programLeft loc r s with log := s.log } := completeOp_running h rfl
  rw [exec_recordProgramDone_of_running h]
  unfold recordProgramDoneEffect
  rw [h.cur]
  dsimp only
  rw [if_neg Bool.false_ne_true, ends]
  dsimp only
  rw [grant]
  rfl

/-- A first program that fails with 2 ERASED segments has a new head opened for the same record (R59). -/
theorem attemptRetry_opens {s r : State} {g : Grant} {v : Nat} {cur : ArrayOp}
    (engine : g.claimant = .engine) (ready : s.log.device = .ready) (floor : 2 ≤ erasedCount s.log.segs)
    (more : s.log.stamp ≠ 4294967295) (choice : chooseHead s.log.segs = some v) (h : Running r cur)
    (rests : s.ctrl = r.ctrl.rest) :
    attemptRetry g s = { s with
      ctrl := { r.ctrl with cur := some (.openedMark v s.log.stamp) }
      log := { s.log with
        stamp := s.log.stamp + 1
        grant := some { g with retry := true, stage := .opening v } } } := by
  unfold attemptRetry
  rw [engine]
  dsimp only
  rw [if_pos ⟨ready, floor⟩, openHead_asks (by exact more) (by exact choice),
    ask_rest h (by exact rests) (by simp)]

/-- A retry that fails, and one that finds no head, end the record MEDIA_FAULT (R60; logs 51, 30). -/
theorem retry_faults {s : State} {g : Grant} (engine : g.claimant = .engine)
    (last : g.retry = true ∨ erasedCount s.log.segs ≤ 1) :
    (if g.retry then attemptFailed g s else attemptRetry g s) = endJob .mediaFault (endGrant s) := by
  unfold attemptFailed attemptRetry
  rw [engine]
  dsimp only
  split_ifs with retry also
  · rfl
  · rcases last with again | few
    · exact absurd again retry
    · exact absurd also.2 (by omega)
  · rfl

/-- Settles O50: `attemptRetry` with and without a new head, and `attemptFailed`. -/
theorem failedProgramIsRetriedOnce : Obligations.FailedProgramIsRetriedOnce := by
  intro s j q r loc g h grant ready engineWaits copyWaits failed segs
  have engine : g.claimant = .engine := by
    obtain ⟨g', grant', engine, _⟩ := h.grant
    rw [grant] at grant'
    cases grant'
    exact engine
  have next := exec_program_failed h.running grant
  have count : erasedCount (programLeft loc r s).log.segs = erasedCount s.log.segs :=
    erasedCount_modify _ _ _ fun _ => rfl
  have leaves {t : State} (u : State)
      (same : u = { t with free := (programLeft loc r s).free, array := (programLeft loc r s).array })
      (ends : exec (.recordProgramDone false) s = .next u) : failed t := by
    refine ⟨if Config.failedProgramWhole s.free then some r else none, ?_, ?_⟩
    · split_ifs
      · exact .inr rfl
      · exact .inl rfl
    · rw [ends, same]
      unfold programLeft
      cases Config.failedProgramWhole s.free <;> rfl
  refine ⟨fun v first floor more choice => ?_, fun last purpose => ?_⟩
  · rw [first, if_neg Bool.false_ne_true,
      attemptRetry_opens (s := programLeft loc r s) (v := v) engine ready (by rw [count]; exact floor)
      more (by exact (chooseHead_modify s.log.segs loc.seg (fun e => { e with suspect := true })
        (fun _ => rfl) fun _ => rfl).trans choice) h.running rfl] at next
    exact leaves _ rfl (next.trans (congrArg _ (if_pos (.inl (by simp)))))
  · have ends := endJob_concludes (s := endGrant (programLeft loc r s)) (q := q)
      (u := groupFailed (unclaimed (endGrant (programLeft loc r s)))) h.job (status := .mediaFault) nofun
      (by rcases purpose with ⟨b, purpose⟩ | purpose | purpose <;> rw [Job.endPayload, purpose])
      (jobGroupEffect_fails (.inl rfl) purpose _) h.request h.unbroken ⟨h.slot.slot, h.slot.quiet⟩
    rw [retry_faults engine (by rw [count]; exact last), ends,
      grantNext_nothingWaits (by rfl) (by exact copyWaits)] at next
    refine leaves _ ?_ next
    rw [unclaimed_eq (by exact engineWaits)]
    rfl

end Sys2Proof.Machine
end

section
/-!
PROOFS. The OPENED, FILLED and RETIRED marks, and the entry into READ_ONLY (R53, R61, R62, R84, R85): O51.
-/

namespace Sys2Proof.Machine

open Sys2Proof

/-! ## A mark's program ends -/

/-- The mark stands in the array, and the controller is at rest. -/
def markEnded (v : Nat) (p : MarkPos) (mark : Mark) (s : State) : State :=
  { s with array := marked v p mark s.array, ctrl := s.ctrl.rest }

theorem completeOp_writeMark {s : State} {cur : ArrayOp} (h : Running s cur) (v : Nat) (p : MarkPos)
    (carried : Nat) (ok : Bool) :
    completeOp (writeMark v p carried ok s) =
      markEnded v p (if ok then .valid carried else .failed) s := completeOp_running h rfl

theorem exec_openedMarkDone {s : State} {v stamp : Nat} (h : Running s (.openedMark v stamp)) (ok : Bool) :
    exec (.openedMarkDone ok) s = .next
      (if ok then openedSucceeded v stamp (markEnded v .opened (.valid stamp) s)
      else openedFailed v (markEnded v .opened .failed s)) := by
  have next : exec (.openedMarkDone ok) s = .next (openedMarkDoneEffect ok s) := congrArg _ (if_pos h.runs)
  rw [next, openedMarkDoneEffect, h.cur]
  dsimp only
  rw [completeOp_writeMark h]
  cases ok with
  | true => simp only [if_true]
  | false => simp only [Bool.false_eq_true, if_false]

theorem exec_filledMarkDone {s : State} {v : Nat} (h : Running s (.filledMark v)) (ok : Bool) :
    exec (.filledMarkDone ok) s = .next
      (if ok then markEnded v .filled (.valid 0) s else markSuspect v (markEnded v .filled .failed s)) := by
  have next : exec (.filledMarkDone ok) s = .next (filledMarkDoneEffect ok s) := congrArg _ (if_pos h.runs)
  rw [next, filledMarkDoneEffect, h.cur]
  dsimp only
  rw [completeOp_writeMark h]
  cases ok with
  | true => simp only [if_true]
  | false => simp only [Bool.false_eq_true, if_false]

theorem exec_retiredMarkDone {s : State} {v : Nat} {asker : Requester} (h : Running s (.retiredMark v asker))
    (ok : Bool) :
    exec (.retiredMarkDone ok) s = .next
      (markEnded v .retired (if ok then .valid 0 else .failed) s) := by
  have next : exec (.retiredMarkDone ok) s = .next (retiredMarkDoneEffect ok s) :=
    congrArg _ (if_pos h.runs)
  rw [next, retiredMarkDoneEffect, h.cur]
  dsimp only
  rw [completeOp_writeMark h]

/-- A request held back starts when the operation that kept it back has ended (R58; log 42). -/
theorem completeOp_released {s : State} {op : ArrayOp} (empty : s.ctrl.queue = [])
    (held : s.ctrl.held = [op]) (unpaused : s.ctrl.paused = none) (other : ∀ v, op ≠ .erase v) :
    completeOp s = { s with ctrl := { s.ctrl with cur := some op, held := [] } } := by
  have admitted : Controller.admits { s.ctrl with cur := none } op = true :=
    admits_idle _ rfl empty (.inr unpaused)
  have released : Controller.release { s.ctrl with cur := none } =
      { s.ctrl with cur := none, queue := [op], held := [] } := by
    unfold Controller.release
    dsimp only
    rw [held, List.find?_cons_of_pos (by exact admitted), empty]
    simp
  unfold completeOp
  rw [released, resume]
  dsimp only [Controller.start]
  cases op with
  | erase v => exact absurd rfl (other v)
  | _ => simp only [empty]

/-! ## The pair of requests of the log manager (R53, R58) -/

/-- The FILLED mark waits behind the record's program, or the program behind the mark. -/
theorem ask_paired {s t : State} {cur op : ArrayOp} {running_ : ArrayOp} (h : Running s running_)
    (ctrl : t.ctrl = { s.ctrl with cur := some cur }) (pair : cur.pairs op = true) :
    ask op t = { t with ctrl := { s.ctrl with cur := some cur, queue := [op] } } := by
  have admitted : t.ctrl.admits op = true := by
    rw [ctrl]
    simp [Controller.admits, Controller.outstanding, h.empty, h.unpaused, pair]
  have busy : ∀ v, cur ≠ .erase v := by
    rintro v rfl
    cases pair
  rw [ask_waits op cur t (by rw [ctrl]) busy admitted, ctrl]
  simp only [h.empty, List.nil_append]

/-- A request of a block beside the one that it has is held back (R58; log 42). -/
theorem ask_beside {s t : State} {cur op running_ : ArrayOp} (h : Running s running_)
    (ctrl : t.ctrl = { s.ctrl with cur := some cur }) (same : cur.requester = op.requester)
    (alone : cur.pairs op = false) :
    ask op t = { t with ctrl := { s.ctrl with cur := some cur, held := [op] } } := by
  have refused : t.ctrl.admits op = false := by
    rw [ctrl]
    simp [Controller.admits, Controller.outstanding, same, alone]
  rw [ask_held op t refused, ctrl]
  simp only [h.held, List.nil_append]

/-- What the end of a record does to the group is all that it does (R29, R98, R100). -/
theorem jobGroupEffect_frame (j : Job) (status : Status) (s : State) :
    ∃ group, jobGroupEffect j status s = { s with group := group } := by
  unfold jobGroupEffect failGroup returnReservation
  split
  · split
    · split <;> exact ⟨_, rfl⟩
    · split <;> exact ⟨_, rfl⟩
    · split <;> exact ⟨_, rfl⟩
    all_goals exact ⟨_, rfl⟩
  · split
    · split <;> exact ⟨_, rfl⟩
    · split <;> exact ⟨_, rfl⟩
    · split <;> exact ⟨_, rfl⟩
    all_goals exact ⟨_, rfl⟩
  · split <;> exact ⟨_, rfl⟩
  · exact ⟨_, rfl⟩

/-! ## The change of the head (R53) -/

/-- The segment table with the old head closed and the new one opened. -/
def headChanged (h v stamp : Nat) (segs : List SegEntry) : List SegEntry :=
  (segs.modify h SegEntry.closed).modify v fun e => e.openAs stamp

theorem changeHead_eq {s : State} {h : Nat} (isHead : headOf s.log.segs = some h) (v stamp : Nat) :
    changeHead v stamp s =
      { s with log := { s.log with segs := headChanged h v stamp s.log.segs } } := by
  unfold changeHead
  rw [isHead]
  rfl

/-- The new head is empty and sound. -/
theorem segAt_headChanged {segs : List SegEntry} {h v stamp : Nat} (inside : v < segs.length) :
    (segAt (headChanged h v stamp segs) v).used = 0 ∧
      (segAt (headChanged h v stamp segs) v).suspect = false := by
  unfold headChanged
  rw [segAt_modify, if_pos ⟨rfl, by rw [List.length_modify]; exact inside⟩]
  exact ⟨rfl, rfl⟩

/-- The engine's first attempt is placed at the write offset of this segment (R49, R52). -/
theorem placeAt_engine {s : State} {g : Grant} (engine : g.claimant = .engine) (first : g.retry = false)
    (v : Nat) (more : s.log.sn + 1 ≠ 4294967295) :
    placeAt g v s =
      let record := { g.record with sn := s.log.sn }
      let loc : Loc := { seg := v, off := 64 + (segAt s.log.segs v).used }
      ask (.programRecord loc record) { s with
        engine := { s.engine with state := .busy }
        reclaim := { s.reclaim with foreground := false }
        log := { s.log with
          sn := s.log.sn + 1
          grant := some { g with record := record, stage := .programming loc }
          segs := s.log.segs.modify v fun e => { e with used := e.used + record.size } } } := by
  cases g
  cases engine
  cases first
  have stays {op : ArrayOp} {u : State} (sn : u.log.sn = s.log.sn + 1) :
      exhaustionTest (ask op u) = ask op u := by
    obtain ⟨ctrl, state, same⟩ := ask_frame op u
    rw [same]
    refine if_neg ?_
    change ¬ u.log.sn = 4294967295
    rw [sn]
    exact more
  unfold placeAt
  dsimp only
  rw [if_neg Bool.false_ne_true, stays rfl]
  rfl

/-- The new head's OPENED mark has succeeded: the heads have changed. -/
def headOpened (h v stamp : Nat) (s : State) : State :=
  { markEnded v .opened (.valid stamp) s with
    log := { s.log with segs := headChanged h v stamp s.log.segs } }

section

variable {s : State} {v stamp h : Nat} {g : Grant}

theorem openedSucceeded_places (isHead : headOf s.log.segs = some h) (grant : s.log.grant = some g)
    (wanted : g.abandoned = false) :
    openedSucceeded v stamp (markEnded v .opened (.valid stamp) s) =
      grantNext (ask (.filledMark h) (placeAt g v (headOpened h v stamp s))) := by
  have granted : (headOpened h v stamp s).log.grant = some g := grant
  unfold openedSucceeded
  rw [changeHead_eq (by exact isHead),
    show headOf (markEnded v .opened (.valid stamp) s).log.segs = some h from isHead]
  change grantNext (askFilled (some h) (match (headOpened h v stamp s).log.grant with
    | some g => if g.abandoned then endGrant (headOpened h v stamp s) else placeAt g v (headOpened h v stamp s)
    | none => headOpened h v stamp s)) = _
  rw [granted]
  dsimp only
  rw [wanted, if_neg Bool.false_ne_true]
  rfl

theorem openedSucceeded_ends (isHead : headOf s.log.segs = some h) (grant : s.log.grant = some g)
    (withdrawn : g.abandoned = true) :
    openedSucceeded v stamp (markEnded v .opened (.valid stamp) s) =
      grantNext (ask (.filledMark h) (endGrant (headOpened h v stamp s))) := by
  have granted : (headOpened h v stamp s).log.grant = some g := grant
  unfold openedSucceeded
  rw [changeHead_eq (by exact isHead),
    show headOf (markEnded v .opened (.valid stamp) s).log.segs = some h from isHead]
  change grantNext (askFilled (some h) (match (headOpened h v stamp s).log.grant with
    | some g => if g.abandoned then endGrant (headOpened h v stamp s) else placeAt g v (headOpened h v stamp s)
    | none => headOpened h v stamp s)) = _
  rw [granted]
  dsimp only
  rw [withdrawn, if_pos rfl]
  rfl

end

/-- A grant under way keeps the append point (R55). -/
theorem grantNext_granted {s : State} {g : Grant} (grant : s.log.grant = some g) : grantNext s = s :=
  if_pos (.inl (by rw [grant]; nofun))

/-- The engine's first attempt is placed where it fits the head. -/
theorem attemptEngine_places {s : State} {j : Job} {head : Nat} (job : s.engine.job = some j)
    (ready : s.log.device = .ready) (whole : commitLost j s = false)
    (isHead : headOf s.log.segs = some head) (fit : fitsHead s.log.segs j.record.size = true) :
    attemptEngine s =
      placeAt (Grant.ofJob j) head { s with log := { s.log with engineWaits := false } } := by
  have may : engineMayPlace j.record.size s = true := by
    unfold engineMayPlace
    rw [fit]
    rfl
  unfold attemptEngine
  dsimp only
  rw [job]
  dsimp only
  rw [if_neg (by rw [ready]; nofun), if_neg (by rw [Bool.not_eq_true]; exact whole),
    if_pos (by exact may)]
  unfold placeOrOpen
  dsimp only
  rw [isHead]
  exact if_pos fit

theorem commitLost_other {j : Job} (other : j.purpose ≠ .commit) (s : State) : commitLost j s = false := by
  unfold commitLost
  rw [decide_eq_false other, Bool.false_and]

theorem fitsHead_empty {segs : List SegEntry} {v size : Nat} (isHead : headOf segs = some v)
    (used : (segAt segs v).used = 0) (sound : (segAt segs v).suspect = false) (small : size ≤ 16320) :
    fitsHead segs size = true := by
  simp [fitsHead, headFree, isHead, sound, used, Config.recordArea, small]

/-- The new head with the bytes of the record placed first in it. -/
theorem headChanged_used (h v stamp size : Nat) (segs : List SegEntry) :
    (headChanged h v stamp segs).modify v (fun e => { e with used := e.used + size }) =
      (segs.modify h fun e => { e with state := .filled, used := 16320 }).modify v fun e =>
        { e with
          state := .opened, stamp := some stamp, used := size, live := 0, suspect := false, pin := false
          reclaimMarked := false } := by
  unfold headChanged
  rw [List.modify_modify_eq]
  refine congrArg (List.modify _ v) (funext fun e => ?_)
  simp [SegEntry.openAs]

/-- The placement of the record that the engine has in hand already. -/
theorem placed_inHand {s : State} {j : Job} (job : s.engine.job = some j)
    (assembly : s.engine.assembly = none) (head : Nat) :
    placed j head s =
      let record := { j.record with sn := s.log.sn }
      let loc : Loc := { seg := head, off := 64 + (segAt s.log.segs head).used }
      { s with
        engine := { s.engine with state := .busy }
        log := { s.log with
          segs := s.log.segs.modify head fun e => { e with used := e.used + record.size }
          sn := s.log.sn + 1, engineWaits := false
          grant := some
            { claimant := .engine, record := record, retry := false, stage := .programming loc
              abandoned := false } }
        ctrl := { s.ctrl with cur := some (.programRecord loc record) }
        reclaim := { s.reclaim with foreground := false } } := by
  have inHand : { s.engine with state := .busy, job := some j, assembly := none } =
      { s.engine with state := .busy } := by rw [← job, ← assembly]
  rw [placed, inHand]

/-! ## The OPENED mark that fails (R53, R85) -/

/-- The segment chosen is out of use, its RETIRED mark asked for and SEGMENT_RETIRED raised. -/
def headLost (v : Nat) (s : State) : State :=
  replied (retiredNotice v .markFailure s.log.segs).out
    { markEnded v .opened .failed s with
      log := { s.log with segs := retired v s.log.segs }
      ctrl := { s.ctrl with cur := some (.retiredMark v .logManager) } }

theorem headRetired_eq {s : State} {v stamp : Nat} (run : Running s (.openedMark v stamp))
    (slot : SlotOpen s) :
    headRetired v (markEnded v .opened .failed s) = backgroundEvent (retirementTest (headLost v s)) := by
  unfold headRetired
  rw [ask_rest run (by rfl) (by simp), raiseRetired_open (segs := s.log.segs) (by rfl)
    (by exact ⟨slot.slot, slot.quiet⟩)]
  rfl

theorem exec_opened_failed {s : State} {v stamp : Nat} (run : Running s (.openedMark v stamp))
    (slot : SlotOpen s) :
    exec (.openedMarkDone false) s =
      .next (grantNext (headFailedNext (backgroundEvent (retirementTest (headLost v s))))) := by
  rw [exec_openedMarkDone run, if_neg Bool.false_ne_true, openedFailed_eq, headRetired_eq run slot]

/-- With 4 ERASED segments left and no pass due, the choice follows the retirement at once. -/
theorem exec_opened_failed_quiet {s : State} {v stamp : Nat} (run : Running s (.openedMark v stamp))
    (slot : SlotOpen s) (due : NothingDue (headLost v s) s.dir) :
    exec (.openedMarkDone false) s = .next (grantNext (headFailedNext (headLost v s))) := by
  rw [exec_opened_failed run slot, retirementTest_stays due.erased, backgroundEvent_nothingDue due]

theorem headFailedNext_withdrawn {s : State} {g : Grant} (grant : s.log.grant = some g)
    (withdrawn : g.abandoned = true) : headFailedNext s = endGrant s := by
  unfold headFailedNext
  rw [grant]
  dsimp only
  rw [withdrawn]
  rfl

theorem headFailedNext_again {s : State} {g : Grant} (grant : s.log.grant = some g)
    (wanted : g.abandoned = false) (ready : s.log.device = .ready) (engine : g.claimant = .engine)
    (first : g.retry = false) : headFailedNext s = attemptEngine (endGrant s) := by
  unfold headFailedNext
  rw [grant]
  dsimp only
  rw [wanted, ready, if_neg (by decide), chooseAgain, engine]
  dsimp only
  rw [first]
  rfl

/-- The engine's record opens a head where the floor allows one (R54). -/
theorem attemptEngine_opens {s : State} {j : Job} {w : Nat} (job : s.engine.job = some j)
    (free : s.log.engineWaits = false)
    (ready : s.log.device = .ready) (whole : commitLost j s = false)
    (full : fitsHead s.log.segs j.record.size = false) (floor : 2 ≤ erasedCount s.log.segs)
    (more : s.log.stamp ≠ 4294967295) (choice : chooseHead s.log.segs = some w) :
    attemptEngine s = ask (.openedMark w s.log.stamp) { s with
      log := { s.log with
        stamp := s.log.stamp + 1
        grant := some
          { claimant := .engine, record := j.record, retry := false, stage := .opening w
            abandoned := false } } } := by
  have log : { s.log with engineWaits := false } = s.log := by rw [← free]
  have may : engineMayPlace j.record.size s = true := by
    unfold engineMayPlace
    rw [decide_eq_true floor, Bool.or_true]
  have same : ({ s with log := { s.log with engineWaits := false } } : State) = s := by rw [log]
  unfold attemptEngine
  rw [same]
  dsimp only
  rw [job]
  dsimp only
  rw [if_neg (by rw [ready]; nofun), if_neg (by rw [Bool.not_eq_true]; exact whole),
    if_pos (by exact may), placeOrOpen_full (by exact full), openHead_asks (by exact more) (by exact choice)]
  rfl

/-! ## Entry into READ_ONLY (R61, R62) -/

theorem groupFailed_jobGroupEffect {j : Job} {status : Status}
    (fault : status = .mediaFault ∨ status = .readOnly) (s : State) :
    groupFailed (jobGroupEffect j status s) = groupFailed s := by
  have twice (s : State) : groupFailed (groupFailed s) = groupFailed s := by
    unfold groupFailed
    by_cases opened : s.group.state = .opened <;> simp [opened]
  have fails := twice s
  unfold jobGroupEffect
  rcases fault with rfl | rfl
  · dsimp only
    split <;> simp only [failGroup_eq, fails]
  · rfl

/-- The engine's record under the grant, not placed yet, ends as the device enters READ_ONLY. -/
theorem refuseEngine_granted {s : State} {g : Grant} {j : Job} {q : Request} {v : Nat}
    (grant : s.log.grant = some g) (engine : g.claimant = .engine) (wanted : g.abandoned = false)
    (stage : g.stage = .opening v) (job : s.engine.job = some j) (request : s.engine.request = some q)
    (unbroken : s.engine.breaking = none) (slot : SlotOpen s)
    (payload : ∀ marker done left, j.purpose ≠ .formatRewrite marker done left) :
    refuseEngine s =
      concluded q (if g.retry then .mediaFault else .readOnly) []
        (jobGroupEffect j (if g.retry then .mediaFault else .readOnly) (unclaimed { s with
          log := { s.log with grant := some { g with abandoned := true } } })) := by
  have unplaced : g.unplaced .engine = true := by
    unfold Grant.unplaced
    rw [engine, wanted, stage]
    rfl
  have gives : g.giveUp = some { g with abandoned := true } := by
    unfold Grant.giveUp
    rw [stage]
  unfold refuseEngine
  rw [grant]
  dsimp only
  rw [if_pos unplaced, gives]
  obtain ⟨group, effect⟩ := jobGroupEffect_frame j (if g.retry then .mediaFault else .readOnly)
    (unclaimed { s with log := { s.log with grant := some { g with abandoned := true } } })
  refine endJob_concludes (by exact job) (by split_ifs <;> nofun) (endPayload_nil payload) rfl ?_ ?_ ?_
  · rw [effect]
    exact request
  · rw [effect]
    exact unbroken
  · rw [effect]
    exact ⟨slot.slot, slot.quiet⟩

/-- No copy waits, and the grant is not a copy's. -/
theorem refuseCopy_other {s : State} (waits : s.log.copyWaits = false)
    (other : ∀ g, s.log.grant = some g → g.claimant = .engine) : refuseCopy s = s := by
  have stays : (if s.log.copyWaits then stopPass s else s) = s := by
    rw [waits]
    rfl
  unfold refuseCopy
  dsimp only
  rw [stays]
  split
  · rename_i g grant
    rw [if_neg (by simp [Grant.unplaced, other g grant])]
  · rfl

/-- The device has entered READ_ONLY; what its record and its copy were refused left `u` (R62). -/
theorem enterReadOnly_raises {s u : State} (cause : RoCause) (ready : s.log.device = .ready)
    (refused : groupFailed (refuseCopy (refuseEngine { s with
      log := { s.log with device := .readOnly } })) = u) (slot : SlotOpen u) :
    enterReadOnly cause s = replied (readOnlyNotice cause u).out u := by
  unfold enterReadOnly
  rw [if_pos ready]
  dsimp only
  rw [failGroup_eq, refused]
  exact raise_open _ slot

/-- The device enters READ_ONLY while the engine's record waits for its OPENED mark (R53, R62). -/
theorem enterReadOnly_granted {s : State} {g : Grant} {j : Job} {q : Request} {v : Nat} (cause : RoCause)
    (ready : s.log.device = .ready) (grant : s.log.grant = some g) (engine : g.claimant = .engine)
    (wanted : g.abandoned = false) (stage : g.stage = .opening v) (job : s.engine.job = some j)
    (request : s.engine.request = some q) (unbroken : s.engine.breaking = none)
    (copy : s.log.copyWaits = false) (room : s.replies.length < 7) (quiet : s.notices = [])
    (payload : ∀ marker done left, j.purpose ≠ .formatRewrite marker done left) :
    enterReadOnly cause s = replied (readOnlyNotice cause s).out
      (concluded q (if g.retry then .mediaFault else .readOnly) [] (groupFailed (unclaimed { s with
        log := { s.log with
          device := .readOnly
          grant := some { g with abandoned := true } } }))) := by
  have status : (if g.retry then Status.mediaFault else .readOnly) = .mediaFault ∨
      (if g.retry then Status.mediaFault else .readOnly) = .readOnly := by
    cases g.retry
    · exact .inr rfl
    · exact .inl rfl
  refine enterReadOnly_raises cause ready ?_ ⟨?_, quiet⟩
  · rw [refuseEngine_granted (s := { s with log := { s.log with device := .readOnly } }) grant engine
      wanted stage job request unbroken ⟨Nat.lt_succ_of_lt room, quiet⟩ payload]
    have effect := groupFailed_jobGroupEffect (j := j) status (unclaimed { s with
      log := { s.log with device := .readOnly, grant := some { g with abandoned := true } } })
    obtain ⟨group, same⟩ := jobGroupEffect_frame j (if g.retry then .mediaFault else .readOnly)
      (unclaimed { s with
        log := { s.log with device := .readOnly, grant := some { g with abandoned := true } } })
    rw [same] at effect ⊢
    rw [refuseCopy_other (by exact copy) (by rintro _ ⟨⟩; exact engine), ← effect]
    rfl
  · simpa [concluded, replied, groupFailed, unclaimed] using Nat.succ_lt_succ room

theorem flagAfterTest_low {flag : Bool} {segs : List SegEntry} {dir : List Entry} (low : inUse segs < 4) :
    flagAfterTest flag segs dir = decide (reclaimable segs ≠ 0) := by
  have few : (segs.filter fun e => e.state = .erased).length ≤ 3 :=
    Nat.le_of_lt_succ ((erasedCount_le_inUse segs).trans_lt low)
  have nothing (none_ : ∀ e ∈ segs, e.state ≠ .filled) : reclaimable segs = 0 := by
    unfold reclaimable
    rw [List.filter_eq_nil_iff.2 fun e mem => by simpa using none_ e mem]
    rfl
  unfold flagAfterTest
  dsimp only
  by_cases empty : reclaimable segs = 0
  · rw [if_pos (.inr (.inl empty)), empty]
    rfl
  · rw [if_neg (by rintro (⟨six, _⟩ | zero | none_)
                   · omega
                   · exact empty zero
                   · exact empty (nothing none_)), if_pos (.inl few), decide_eq_true empty]

/-- Settles O51: the heads change with the OPENED mark's success, and its failure retires the segment, with
the choice made again, or the record's end, behind it. -/
theorem headAndRetirementMarksAreRecorded : Obligations.HeadAndRetirementMarksAreRecorded := by
  refine ⟨?_, ?_, ?_, ?_, ?_⟩
  · intro s g v stamp h run grant engine first wanted stage isHead other inside ready more record loc
    have empty := (segAt_headChanged (segs := s.log.segs) (h := h) (stamp := stamp) inside).1
    rw [exec_openedMarkDone run, if_pos rfl, openedSucceeded_places isHead grant wanted,
      placeAt_engine (s := headOpened h v stamp s) engine first v more]
    dsimp only [headOpened]
    rw [empty, ask_rest run (op := .programRecord _ _) (by rfl) (by simp),
      ask_paired run (op := .filledMark h) (by rfl) (by rfl), grantNext_granted (by rfl), headChanged_used]
    rfl
  · intro s g v stamp run grant slot segs t after
    have granted : (headLost v s).log.grant = some g := grant
    refine ⟨fun withdrawn inside due => ?_,
      fun j w wanted engine first stage job plain ready due full more choice => ?_,
      fun j q wanted engine stage job request unbroken payload ready copyWaits low room => ?_⟩
    · refine (exec_opened_failed_quiet run slot
        ⟨due.engine, due.copy, due.foreground, due.background, due.tidy, due.erased, due.buried⟩).trans ?_
      rw [headFailedNext_withdrawn granted withdrawn,
        grantNext_nothingWaits (by exact due.engine) (by exact due.copy)]
      rfl
    · refine (exec_opened_failed_quiet run slot
        ⟨due.engine, due.copy, due.foreground, due.background, due.tidy, due.erased, due.buried⟩).trans ?_
      rw [headFailedNext_again granted wanted (by exact ready) engine first,
        attemptEngine_opens (j := j) (w := w) (by exact job) (by exact due.engine) (by exact ready)
          (commitLost_other plain _) (by exact full) (by exact Nat.le_trans (by decide) due.erased)
          (by exact more) (by exact choice),
        ask_beside run (by rfl) (by rfl) (by rfl), grantNext_granted (by rfl)]
      rfl
    · have entered := enterReadOnly_granted (s := headLost v s) .retirement (by exact ready) granted engine
        wanted stage (by exact job) (by exact request) (by exact unbroken) (by exact copyWaits)
        (by simp [headLost, replied, markEnded]; omega) (by exact slot.quiet) payload
      have low' : retirementTest (headLost v s) = enterReadOnly .retirement (headLost v s) :=
        if_pos low
      refine (exec_opened_failed run slot).trans ?_
      rw [low', entered, backgroundEvent, testBackground_flagTested, weighPass_readOnly (by rfl),
        headFailedNext_withdrawn (g := { g with abandoned := true }) (by rfl) (by rfl)]
      refine congrArg _ ((if_pos (.inr (by exact nofun))).trans ?_)
      unfold flagTested
      rw [flagAfterTest_low (by exact low)]
      rfl
  · intro s g v stamp h j c x run grant withdrawn isHead other inside ready engineWaits copyWaits job plain
      assembly copy buffer small smallCopy more segs t program after isNew
    have used := (segAt_headChanged (segs := s.log.segs) (h := h) (stamp := stamp) inside).1
    have sound := (segAt_headChanged (segs := s.log.segs) (h := h) (stamp := stamp) inside).2
    have same : { endGrant (headOpened h v stamp s) with
        ctrl := { s.ctrl with cur := some (.filledMark h) } } =
          { t with ctrl := { s.ctrl with cur := some (.filledMark h) } } := rfl
    have next : exec (.openedMarkDone true) s =
        .next (grantNext { t with ctrl := { s.ctrl with cur := some (.filledMark h) } }) := by
      rw [exec_openedMarkDone run, if_pos rfl, openedSucceeded_ends isHead grant withdrawn,
        ask_rest run (by rfl) (by simp), same]
    have free : t.log.grant = none := rfl
    have off : 64 + (segAt segs v).used = 64 := by rw [show (segAt segs v).used = 0 from used]
    refine ⟨fun floor => ?_, fun few => ?_⟩
    · have fit : fitsHead segs j.record.size = true := fitsHead_empty isNew used sound small
      have granted : grantNext { t with ctrl := { s.ctrl with cur := some (.filledMark h) } } =
          { placed j v t with ctrl := program { j.record with sn := s.log.sn } } := by
        unfold grantNext
        rw [if_neg (by simp [t, ready]), if_pos (by exact ⟨engineWaits, copyWaits⟩),
          if_pos (by exact floor), attemptEngine_places (by exact job) (by exact ready)
            (commitLost_other plain _) (by exact isNew) (by exact fit),
          placeAt_engine rfl rfl v (by exact more)]
        dsimp only
        rw [ask_paired run (op := .programRecord _ _) (by rfl) (by rfl), off]
        refine (if_neg (by simp)).trans ?_
        rw [placed_inHand (by exact job) (by exact assembly), off]
        rfl
      exact next.trans (congrArg _ granted)
    · have granted : grantNext { t with ctrl := { s.ctrl with cur := some (.filledMark h) } } =
          copyGranted c x v (program { x with tagged := copyTag s x }) t := by
        unfold grantNext
        rw [if_neg (by simp [t, ready]), if_pos (by exact ⟨engineWaits, copyWaits⟩),
          if_neg (by exact Nat.not_le.2 (Nat.lt_succ_of_le few)),
          attemptCopy_asks (s := { t with ctrl := { s.ctrl with cur := some (.filledMark h) } })
            (head := v) copy buffer ready isNew sound (by exact used.symm ▸ (Nat.zero_add _).trans_le smallCopy),
          ask_paired run (by rfl) (by rfl)]
        refine (if_neg (by simp [copyGranted])).trans ?_
        rw [off]
        rfl
      exact next.trans (congrArg _ granted)
  · intro s v w stamp ok powered rst cur empty held unpaused
    have next : exec (.retiredMarkDone ok) s = .next (retiredMarkDoneEffect ok s) :=
      congrArg _ (if_pos (by rw [running, powered, rst]; rfl))
    rw [next, retiredMarkDoneEffect, cur]
    dsimp only
    rw [completeOp_released (by exact empty) (by exact held) (by exact unpaused) (by simp)]
    rfl
  · intro s h
    refine ⟨fun run => ⟨?_, ?_⟩, fun asker run => ⟨?_, ?_⟩⟩
    · rw [exec_filledMarkDone run, if_pos rfl]
      rfl
    · rw [exec_filledMarkDone run, if_neg Bool.false_ne_true]
      rfl
    · rw [exec_retiredMarkDone run, if_pos rfl]
      rfl
    · rw [exec_retiredMarkDone run, if_neg Bool.false_ne_true]
      rfl

end Sys2Proof.Machine
end

section
/-!
PROOFS. The walk of a pass, and the copies it places (R49, R73 to R79, R104, R130): O52 and O53.
-/

namespace Sys2Proof.Machine

open Sys2Proof

/-! ## The RECLAIM mark -/

theorem exec_reclaimMarkDone {s : State} {v : Nat} (h : Running s (.reclaimMark v)) (ok : Bool) :
    exec (.reclaimMarkDone ok) s = .next (beginWalk v
      (if ok then markEnded v .reclaim (.valid 0) s else markSuspect v (markEnded v .reclaim .failed s))) := by
  have next : exec (.reclaimMarkDone ok) s = .next (reclaimMarkDoneEffect ok s) :=
    congrArg _ (if_pos h.runs)
  rw [next, reclaimMarkDoneEffect, h.cur]
  dsimp only
  rw [completeOp_writeMark h]
  cases ok with
  | true => simp only [if_true]
  | false => simp only [Bool.false_eq_true, if_false]

/-- The victim once its RECLAIM mark has ended: suspect where it failed (R73). -/
def reclaimMarked (v : Nat) (ok : Bool) (s : State) : State :=
  { s with
    array := marked v .reclaim (if ok then .valid 0 else .failed) s.array
    ctrl := s.ctrl.rest
    log := { s.log with
      segs := if ok then s.log.segs else s.log.segs.modify v fun e => { e with suspect := true } } }

theorem exec_reclaimMark_walks {s : State} {v : Nat} (h : Running s (.reclaimMark v))
    (victim : s.reclaim.victim = some v) (copying : s.reclaim.state = .copying)
    (copy : s.reclaim.copy = none) (ok : Bool) :
    exec (.reclaimMarkDone ok) s = .next (walkStep (reclaimMarked v ok s)) := by
  have same : (if ok then markEnded v .reclaim (.valid 0) s
      else markSuspect v (markEnded v .reclaim .failed s)) = reclaimMarked v ok s := by
    cases ok <;> rfl
  rw [exec_reclaimMarkDone h, same]
  exact congrArg _ (if_pos ⟨victim, copying, copy⟩)

theorem segAt_reclaimMarked_pin (v : Nat) (ok : Bool) (s : State) :
    (segAt (reclaimMarked v ok s).log.segs v).pin = (segAt s.log.segs v).pin := by
  cases ok with
  | true => rfl
  | false =>
    change (segAt (s.log.segs.modify v _) v).pin = _
    rw [segAt_modify]
    split_ifs <;> rfl

/-- The walk has ended on a pinned victim: its pin is waited for (R80). -/
theorem walkStep_waits {s : State} {v : Nat} (victim : s.reclaim.victim = some v)
    (done : lowestNamed v s.reclaim.position s = none) (pinned : (segAt s.log.segs v).pin = true) :
    walkStep s = { s with reclaim := { s.reclaim with copy := none, state := .pinWait } } := by
  unfold walkStep walkStepWith
  rw [victim]
  dsimp only
  rw [done]
  exact if_pos pinned

/-- Settles O52: `lowestNamed` is the least of the named records above the position, and the walk starts at
the RECLAIM mark's end. -/
theorem walkMeetsTheLowestNeededRecord : Obligations.WalkMeetsTheLowestNeededRecord := by
  refine ⟨fun seg position s => ⟨fun c lowest => lowestNamed_spec lowest, lowestNamed_none⟩, ?_⟩
  intro s v h victim copying copy position t
  have next := exec_reclaimMark_walks h victim copying copy
  refine ⟨fun ok c lowest => ?_, fun ok done pinned => ?_, fun done unpinned sound => ?_⟩
  · rw [next, walkStep_reads (v := v) (c := c) (by exact victim) (by rfl) (by exact h.empty)
      (by exact h.unpaused) (by rw [← position] at lowest; exact lowest)]
    rfl
  · rw [next, walkStep_waits (v := v) (by exact victim) (by rw [← position] at done; exact done)
      (by rw [segAt_reclaimMarked_pin]; exact pinned)]
    dsimp only
    rw [copy]
    rfl
  · rw [next, walkStep_erases (v := v) (by exact victim) (by rfl) (by exact h.empty)
      (by exact h.unpaused) (by exact unpinned) (by exact sound)
      (by rw [← position] at done; exact done)]
    dsimp only
    rw [copy]
    rfl

/-! ## A copy's read -/

theorem exec_copyReadDone {s : State} {loc : Loc} (h : Running s (.copyRead loc)) (ok : Bool) :
    exec (.copyReadDone ok) s = .next (copyReadDoneEffect ok s) := congrArg _ (if_pos h.runs)

/-- The copy's read passes: the copy claims the append point (R76). -/
theorem exec_copy_read {s : State} {c : Copy} {r : Record} (h : Running s (.copyRead c.loc))
    (copy : s.reclaim.copy = some c) (kept : c.dropped = false) (stands : recordAt s c.loc = some r) :
    exec (.copyReadDone true) s = .next (bufferCopy c r { s with ctrl := s.ctrl.rest }) := by
  have rests : completeOp s = { s with ctrl := s.ctrl.rest } := completeOp_running h rfl
  rw [exec_copyReadDone h, copyReadDoneEffect, h.cur]
  dsimp only
  rw [rests]
  dsimp only
  rw [copy]
  dsimp only
  rw [kept, if_neg Bool.false_ne_true, stands]
  rfl

/-- The read of the copy fails its check, or finds no record: its owner loses it (R75). -/
theorem exec_copy_lost {s : State} {c : Copy} (h : Running s (.copyRead c.loc))
    (copy : s.reclaim.copy = some c) (kept : c.dropped = false) :
    exec (.copyReadDone false) s = .next (copyLost c { s with ctrl := s.ctrl.rest }) := by
  have rests : completeOp s = { s with ctrl := s.ctrl.rest } := completeOp_running h rfl
  rw [exec_copyReadDone h, copyReadDoneEffect, h.cur]
  dsimp only
  rw [rests]
  dsimp only
  rw [copy]
  dsimp only
  rw [kept, if_neg Bool.false_ne_true]
  cases recordAt s c.loc <;> rfl

/-- The copy claims the free append point. -/
theorem bufferCopy_attempts {s : State} (c : Copy) (r : Record) (ready : s.log.device = .ready)
    (free : s.log.grant = none) :
    bufferCopy c r s =
      attemptCopy { s with reclaim := { s.reclaim with copy := some { c with buffer := some r } } } := by
  unfold bufferCopy claimCopy
  rw [if_neg (by simp [ready]), if_pos (by exact free)]

/-- A copy in the buffer that fits the head is placed there (R49, R76). -/
theorem bufferCopy_places {s t : State} {cur : ArrayOp} (h : Running t cur) (rests : s.ctrl = t.ctrl.rest)
    (c : Copy) {r : Record} {head : Nat} (ready : s.log.device = .ready) (free : s.log.grant = none)
    (isHead : headOf s.log.segs = some head) (sound : (segAt s.log.segs head).suspect = false)
    (fits : (segAt s.log.segs head).used + r.size ≤ 16320) :
    bufferCopy c r s = copyGranted c r head
      { t.ctrl with cur := some (.programRecord
          { seg := head, off := 64 + (segAt s.log.segs head).used } { r with tagged := copyTag s r }) }
      s := by
  rw [bufferCopy_attempts c r ready free,
    attemptCopy_asks (s := { s with
      reclaim := { s.reclaim with copy := some { c with buffer := some r } } }) (x := r) rfl rfl ready isHead
      sound fits, ask_rest h (by exact rests) (by simp)]
  rfl

/-! ## A copy's program -/

/-- The thresholds, with the flag clear, start nothing while a pass is in hand. -/
theorem backgroundEvent_busy {s : State} (busy : s.reclaim.state ≠ .idle)
    (clear : s.reclaim.background = false) (erased : 4 ≤ erasedCount s.log.segs)
    (buried : buriedTotal s.dir < 64) : backgroundEvent s = s := by
  have start : backgroundStart s = false := by
    simp only [backgroundStart, Bool.or_eq_false_iff, decide_eq_false_iff_not]
    omega
  have same : ({ s with reclaim := { s.reclaim with background := false } } : State) = s := by rw [← clear]
  have test : testBackground s = s := by
    unfold testBackground
    rw [start, same]
    simp
  rw [backgroundEvent, test, weighPass_busy busy]

/-- The copy is programmed, its owner's relocation leaves `u`, and the walk meets the next record. -/
theorem exec_copy_programmed {s u : State} {g : Grant} {c : Copy} {loc : Loc} {v : Nat}
    (h : Running s (.programRecord loc g.record)) (grant : s.log.grant = some g)
    (claimant : g.claimant = .reclaim) (copy : s.reclaim.copy = some c)
    (victim : s.reclaim.victim = some v) (copying : s.reclaim.state = .copying)
    (engineWaits : s.log.engineWaits = false) (copyWaits : s.log.copyWaits = false)
    (clear : s.reclaim.background = false) (moves : relocate c loc (programmed loc g.record s) = u)
    (reclaim : u.reclaim = s.reclaim) (ctrl : u.ctrl = s.ctrl.rest)
    (engine : u.log.engineWaits = s.log.engineWaits) (copies : u.log.copyWaits = s.log.copyWaits)
    (erased : 4 ≤ erasedCount u.log.segs) (buried : buriedTotal u.dir < 64) {d : Copy}
    (lowest : lowestNamed v s.reclaim.position u = some d) :
    exec (.recordProgramDone true) s = .next { endGrant u with
      reclaim := { s.reclaim with copy := some d, position := d.loc.off + d.size }
      ctrl := { s.ctrl with cur := some (.copyRead d.loc) } } := by
  have ends : completeOp (writeSlot loc g.record true s) = programmed loc g.record s :=
    completeOp_running h rfl
  have granted : (programmed loc g.record s).log.grant = some g := grant
  have inHand : (programmed loc g.record s).reclaim.copy = some c := copy
  rw [exec_recordProgramDone_of_running h]
  unfold recordProgramDoneEffect
  rw [h.cur]
  dsimp only
  rw [if_pos rfl, ends, granted]
  dsimp only
  rw [if_pos rfl, claimant]
  dsimp only
  unfold copyProgrammed
  rw [inHand]
  dsimp only
  rw [moves, reclaim, backgroundEvent_busy (by exact copying.trans_ne nofun) (by exact clear)
    (by exact erased) (by exact buried),
    grantNext_nothingWaits (by exact engine.trans engineWaits) (by exact copies.trans copyWaits),
    walkStep_reads (v := v) (c := d) (by exact victim) (by exact congrArg Controller.cur ctrl)
      (by exact (congrArg Controller.queue ctrl).trans h.empty)
      (by exact (congrArg Controller.paused ctrl).trans h.unpaused) (by exact lowest)]
  refine congrArg _ ?_
  dsimp only [endGrant]
  rw [ctrl]
  rfl

/-! ## The relocations (R15, R104, R130) -/

/-- The bytes of a copy moved with it. -/
def segsMoved (c : Copy) (dest : Loc) (segs : List SegEntry) : List SegEntry :=
  deadened c.loc.seg c.size (livened dest.seg c.size segs)

theorem erasedCount_segsMoved (c : Copy) (dest : Loc) (segs : List SegEntry) :
    erasedCount (segsMoved c dest segs) = erasedCount segs :=
  (erasedCount_deadened _ _ _).trans (erasedCount_livened _ _ _)

theorem dirRelocation_moves {s : State} {c : Copy} {dest : Loc} {e : Entry} {length : Nat}
    (found : lookup s.dir c.ns c.key = some e) (live : e.state = .live length) (version : e.version = c.sn)
    (loc : e.loc = c.loc) :
    dirRelocation c dest s = { s with
      dir := dirPut s.dir { e with loc := dest }
      log := { s.log with segs := segsMoved c dest s.log.segs } } := by
  unfold dirRelocation
  rw [found]
  dsimp only
  rw [if_pos ⟨by rw [Entry.isLive, live], version, loc⟩]
  rfl

theorem dirRelocation_stays {s : State} {c : Copy} {dest : Loc}
    (changed : ∀ e length, lookup s.dir c.ns c.key = some e → e.state = .live length → e.version = c.sn →
      e.loc ≠ c.loc) : dirRelocation c dest s = s := by
  unfold dirRelocation
  cases found : lookup s.dir c.ns c.key with
  | none => rfl
  | some e =>
    dsimp only
    refine if_neg fun ⟨live, version, loc⟩ => ?_
    unfold Entry.isLive at live
    cases state : e.state with
    | live length => exact changed e length found state version loc
    | buried =>
      rw [state] at live
      cases live

theorem pendingMatch_iff (p : Pending) (c : Copy) : pendingMatch p c = true ↔
    p.standing = .current ∧ p.ns = c.ns ∧ p.key = c.key ∧ p.sn = c.sn ∧ p.loc = c.loc := decide_eq_true_iff

theorem anyPending_iff (list : List Pending) (c : Copy) :
    list.any (pendingMatch · c) = true ↔ ∃ p ∈ list,
      p.standing = .current ∧ p.ns = c.ns ∧ p.key = c.key ∧ p.sn = c.sn ∧ p.loc = c.loc := by
  simp only [List.any_eq_true, pendingMatch_iff]

theorem map_pendingMatch (list : List Pending) (c : Copy) (f : Pending → Pending) :
    (list.map fun p => if pendingMatch p c then f p else p) =
      list.map fun p =>
        if p.standing = .current ∧ p.ns = c.ns ∧ p.key = c.key ∧ p.sn = c.sn ∧ p.loc = c.loc then f p
        else p := by
  simp only [pendingMatch_iff]

theorem groupRelocation_stays {s : State} {c : Copy} {dest : Loc} (unnamed : ∀ p ∈ s.group.list,
    ¬ (p.standing = .current ∧ p.ns = c.ns ∧ p.key = c.key ∧ p.sn = c.sn ∧ p.loc = c.loc)) :
    groupRelocation c dest s = s := by
  refine if_neg fun any => ?_
  obtain ⟨p, mem, named⟩ := (anyPending_iff _ _).1 any
  exact unnamed p mem named

theorem groupRelocation_moves {s : State} {c : Copy} {dest : Loc} {p : Pending} (mem : p ∈ s.group.list)
    (named : p.standing = .current ∧ p.ns = c.ns ∧ p.key = c.key ∧ p.sn = c.sn ∧ p.loc = c.loc) :
    groupRelocation c dest s = { s with
      group := { s.group with
        list := s.group.list.map fun p =>
          if p.standing = .current ∧ p.ns = c.ns ∧ p.key = c.key ∧ p.sn = c.sn ∧ p.loc = c.loc
          then { p with loc := dest } else p }
      log := { s.log with segs := segsMoved c dest s.log.segs } } := by
  rw [← map_pendingMatch]
  exact if_pos ((anyPending_iff _ _).2 ⟨p, mem, named⟩)

theorem settingMatch_some {s : State} {c : Copy} {id : Byte} {x : Setting} (key : c.key = [id])
    (found : settingOf s.prot.settings id = some x) (sn : x.sn = c.sn) (loc : x.loc = c.loc) :
    settingMatch c s = some x := by
  unfold settingMatch
  rw [key]
  dsimp only [List.headD_cons]
  rw [found]
  exact if_pos ⟨sn, loc⟩

theorem settingMatch_none {s : State} {c : Copy} {id : Byte} (key : c.key = [id])
    (changed : ∀ x, settingOf s.prot.settings id = some x → x.sn = c.sn → x.loc ≠ c.loc) :
    settingMatch c s = none := by
  unfold settingMatch
  rw [key]
  dsimp only [List.headD_cons]
  cases found : settingOf s.prot.settings id with
  | none => rfl
  | some x => exact if_neg fun ⟨sn, loc⟩ => changed x found sn loc

/-! ## A copy that fits nowhere (R51, R62, R78) -/

/-- The unit has given up its pass, whose victim stays RECLAIMING (R78). -/
def passStopped (s : State) : State :=
  { s with
    log := { s.log with copyWaits := false }
    reclaim := { s.reclaim with state := .idle, victim := none, copy := none } }

theorem stopPass_idle {s : State} (idle : s.engine.state = .idle) : stopPass s = passStopped s :=
  endTidy_idle (s := passStopped s) (tidyRunning_idle idle)

theorem refuseEngine_idle {s : State} (idle : s.engine.state = .idle) (waits : s.log.engineWaits = false)
    (other : ∀ g, s.log.grant = some g → g.claimant = .reclaim) : refuseEngine s = s := by
  have stays : (if s.log.engineWaits || decide (s.engine.state = .waitingSpace) then endJob .readOnly s
      else s) = s := by
    rw [waits, idle]
    rfl
  unfold refuseEngine
  dsimp only
  rw [stays]
  split
  · rename_i g grant
    rw [if_neg (by simp [Grant.unplaced, other g grant])]
  · rfl

/-- A copy that neither fits the head nor finds an ERASED segment stops its pass, and the device enters
READ_ONLY. -/
theorem attemptCopy_unplaceable {s : State} {c : Copy} {r : Record} (copy : s.reclaim.copy = some c)
    (buffer : c.buffer = some r) (ready : s.log.device = .ready)
    (full : fitsHead s.log.segs r.size = false) (none_ : erasedCount s.log.segs = 0)
    (idle : s.engine.state = .idle) (waits : s.log.engineWaits = false) (slot : SlotOpen s) :
    attemptCopy s = replied (readOnlyNotice .copyUnplaceable s).out (groupFailed (passStopped { s with
      log := { s.log with device := .readOnly, grant := none } })) := by
  let g := Grant.ofCopy r false
  let t : State := { s with log := { s.log with copyWaits := false, grant := some g, device := .readOnly } }
  have engine : refuseEngine t = t := refuseEngine_idle idle waits (by rintro _ ⟨⟩; rfl)
  have copies : refuseCopy t = stopPass { t with log := { t.log with grant := none } } := rfl
  unfold attemptCopy
  dsimp only
  rw [copy]
  dsimp only
  rw [buffer]
  dsimp only
  unfold attemptCopyWith
  dsimp only
  rw [if_neg (by simp [ready]), if_neg (by simp [full, none_])]
  refine enterReadOnly_raises (u := groupFailed (passStopped { s with
    log := { s.log with device := .readOnly, grant := none } })) .copyUnplaceable ready ?_
    ⟨slot.slot, slot.quiet⟩
  refine (congrArg (fun x => groupFailed (refuseCopy x)) engine).trans ?_
  rw [copies, stopPass_idle (by exact idle)]
  rfl

/-- Settles O53: a copy read is placed under its grant, and its program relocates what its owner still
names. -/
theorem copyKeepsItsSnAndMovesTheEntry : Obligations.CopyKeepsItsSnAndMovesTheEntry := by
  refine ⟨?_, ?_, ?_, ?_⟩
  · intro s c r head h copy kept stands ready free isHead sound fits tagged record loc
    rw [exec_copy_read h copy kept stands, bufferCopy_places h (by rfl) c (by exact ready) (by exact free)
      (by exact isHead) (by exact sound) (by exact fits)]
    rfl
  · intro s g c e length loc v h grant claimant copy owner victim copying engineWaits copyWaits clear erased
      _ found live version at_ dir t buried
    refine ⟨fun d lowest => ?_, fun ns key => lookup_dirPut _ _ _ _⟩
    have moves : relocate c loc (programmed loc g.record s) = { programmed loc g.record s with
        dir := dir
        log := { s.log with segs := segsMoved c loc s.log.segs } } := by
      unfold relocate
      rw [owner]
      exact dirRelocation_moves (s := programmed loc g.record s) found live version at_
    exact exec_copy_programmed h grant claimant copy victim copying engineWaits copyWaits clear moves rfl
      rfl rfl rfl (by rw [erasedCount_segsMoved]; exact erased) buried lowest
  · intro s g c loc v h grant claimant copy victim copying engineWaits copyWaits clear erased buried t moved
      walksOn named
    have stays (same : relocate c loc (programmed loc g.record s) = programmed loc g.record s) :
        walksOn t := fun d lowest =>
      exec_copy_programmed h grant claimant copy victim copying engineWaits copyWaits clear same rfl rfl rfl
        rfl erased buried lowest
    refine ⟨fun owner unnamed => stays ?_, fun p owner mem match_ d lowest => ?_,
      fun id x owner key found sn at_ d lowest => ?_, fun id owner key changed => stays ?_,
      fun owner changed => stays ?_⟩
    · unfold relocate
      rw [owner]
      exact groupRelocation_stays (s := programmed loc g.record s) unnamed
    · have moves : relocate c loc (programmed loc g.record s) = { programmed loc g.record s with
          group := { s.group with
            list := s.group.list.map fun p =>
              if p.standing = .current ∧ p.ns = c.ns ∧ p.key = c.key ∧ p.sn = c.sn ∧ p.loc = c.loc
              then { p with loc := loc } else p }
          log := { s.log with segs := segsMoved c loc s.log.segs } } := by
        unfold relocate
        rw [owner]
        exact groupRelocation_moves (s := programmed loc g.record s) mem match_
      exact exec_copy_programmed h grant claimant copy victim copying engineWaits copyWaits clear moves rfl
        rfl rfl rfl (by rw [erasedCount_segsMoved]; exact erased) buried lowest
    · have moves : relocate c loc (programmed loc g.record s) = { programmed loc g.record s with
          prot := { s.prot with settings := settingsPut s.prot.settings { x with loc := loc } }
          log := { s.log with segs := segsMoved c loc s.log.segs } } := by
        unfold relocate
        rw [owner]
        dsimp only
        rw [settingsRelocation, settingMatch_some (x := x) key (by exact found) sn at_]
        rfl
      exact exec_copy_programmed h grant claimant copy victim copying engineWaits copyWaits clear moves rfl
        rfl rfl rfl (by rw [erasedCount_segsMoved]; exact erased) buried lowest
    · unfold relocate
      rw [owner]
      dsimp only
      rw [settingsRelocation, settingMatch_none key (by exact changed)]
    · unfold relocate
      rw [owner]
      exact dirRelocation_stays (s := programmed loc g.record s) changed
  · intro s c r h copy kept stands ready free full none_ idle waits slot
    rw [exec_copy_read h copy kept stands, bufferCopy_attempts c r (by exact ready) (by exact free),
      attemptCopy_unplaceable (c := { c with buffer := some r }) (by rfl) (by rfl) (by exact ready)
        (by exact full) (by exact none_) (by exact idle) (by exact waits)
        (by exact ⟨slot.slot, slot.quiet⟩)]
    unfold passStopped groupFailed
    dsimp only
    rw [free]
    rfl

end Sys2Proof.Machine
end

section
/-!
PROOFS. Records that fail their check (R17, R34, R75, R106, R131): O54.
-/

namespace Sys2Proof.Machine

open Sys2Proof

/-! ## The owners lose a record -/

theorem dirRemove_eq (dir : List Entry) (ns : Nat) (key : Bytes) :
    dirRemove dir ns key = dir.filter fun x => ¬ (x.ns = ns ∧ x.key = key) := by
  unfold dirRemove
  simp only [decide_not]

/-- The entry that still names the lost record leaves the directory (R17). -/
theorem lostRemoval_removes {s : State} {ns version length : Nat} {key : Bytes} {loc : Loc} {e : Entry}
    (slot : SlotOpen s) (found : lookup s.dir ns key = some e) (live : e.state = .live length)
    (same : e.version = version) (at_ : e.loc = loc) :
    lostRemoval ns key version loc s =
      replied (Notice.recordLost ns false 1 version key).out { s with
        dir := s.dir.filter fun x => ¬ (x.ns = ns ∧ x.key = key)
        log := { s.log with
          segs := deadened loc.seg (recordSize e.key.length length) s.log.segs } } := by
  have size : e.recordSize = recordSize e.key.length length := by
    rw [Entry.recordSize, Entry.length, live]
  unfold lostRemoval
  rw [found]
  dsimp only
  rw [if_pos ⟨by rw [Entry.isLive, live], same, at_⟩, raiseLost, raise_open _ (by
    exact ⟨slot.slot, slot.quiet⟩), dirRemove_eq, size]
  rfl

/-- An entry that names another record now stays (R17). -/
theorem lostRemoval_stays {s : State} {ns version : Nat} {key : Bytes} {loc : Loc}
    (moved : ∀ e, lookup s.dir ns key = some e → e.loc ≠ loc) : lostRemoval ns key version loc s = s := by
  unfold lostRemoval
  cases found : lookup s.dir ns key with
  | none => rfl
  | some e => exact if_neg fun ⟨_, _, at_⟩ => moved e found at_

theorem groupLost_stays {s : State} {c : Copy} (unnamed : ∀ p ∈ s.group.list,
    ¬ (p.standing = .current ∧ p.ns = c.ns ∧ p.key = c.key ∧ p.sn = c.sn ∧ p.loc = c.loc)) :
    groupLost c s = s := by
  refine if_neg fun any => ?_
  obtain ⟨p, mem, named⟩ := (anyPending_iff _ _).1 any
  exact unnamed p mem named

/-- The pending entry that names the lost record is LOST, and an OPEN group FAILED (R98, R106). -/
theorem groupLost_fails {s : State} {c : Copy} {p : Pending} (slot : SlotOpen s) (mem : p ∈ s.group.list)
    (named : p.standing = .current ∧ p.ns = c.ns ∧ p.key = c.key ∧ p.sn = c.sn ∧ p.loc = c.loc) :
    groupLost c s = replied (Notice.recordLost c.ns false 1 c.sn c.key).out { s with
      group := { s.group with
        state := if s.group.state = .opened then .failed else s.group.state
        list := s.group.list.map fun p =>
          if p.standing = .current ∧ p.ns = c.ns ∧ p.key = c.key ∧ p.sn = c.sn ∧ p.loc = c.loc
          then { p with standing := .lost } else p }
      log := { s.log with segs := deadened c.loc.seg c.size s.log.segs } } := by
  have any := (anyPending_iff _ _).2 ⟨p, mem, named⟩
  rw [← map_pendingMatch, groupLost, if_pos any]
  dsimp only
  rw [failGroup_eq, raiseLost, raise_open _ (by exact ⟨slot.slot, slot.quiet⟩)]
  rfl

/-- The lost copy has been dealt with, which left `u`, and the walk meets the next record (R74). -/
theorem clearCopy_reads {s u : State} {cur : ArrayOp} (h : Running s cur) {v : Nat} {d : Copy}
    (ctrl : u.ctrl = s.ctrl.rest) (reclaim : u.reclaim = s.reclaim) (victim : s.reclaim.victim = some v)
    (lowest : lowestNamed v s.reclaim.position u = some d) :
    clearCopy u = { u with
      reclaim := { s.reclaim with copy := some d, position := d.loc.off + d.size }
      ctrl := { s.ctrl with cur := some (.copyRead d.loc) } } := by
  unfold clearCopy
  rw [reclaim, walkStep_reads (v := v) (c := d) (by exact victim) (by exact congrArg Controller.cur ctrl)
    (by exact (congrArg Controller.queue ctrl).trans h.empty)
    (by exact (congrArg Controller.paused ctrl).trans h.unpaused) (by exact lowest)]
  dsimp only
  rw [ctrl]
  rfl

/-! ## The first read of a stream -/

/-- The first read fails its check, or finds no record (R34). -/
theorem exec_first_read_fails {s : State} {st : Stream} {q : Request}
    (h : Running s (.getFirstRead st.loc true)) (request : s.engine.request = some q)
    (stream : s.engine.stream = some st) :
    exec (.getFirstReadDone false) s = .next (streamCorrupt st q.ns { s with ctrl := s.ctrl.rest }) := by
  have next : exec (.getFirstReadDone false) s = .next (getFirstReadDoneEffect false s) :=
    congrArg _ (if_pos h.runs)
  have rests : completeOp s = { s with ctrl := s.ctrl.rest } := completeOp_running h rfl
  rw [next, getFirstReadDoneEffect, h.cur]
  dsimp only
  rw [if_pos rfl, rests]
  unfold firstReadDone
  dsimp only
  rw [request, stream]
  dsimp only
  cases recordAt { s with ctrl := s.ctrl.rest } st.loc with
  | none => rfl
  | some r => exact congrArg _ (if_neg Bool.false_ne_true)

/-- A stream that ends CORRUPT, its removal having left `u`. -/
theorem streamCorrupt_concludes {s u : State} {st : Stream} {q : Request}
    (removal : lostRemoval q.ns st.key st.version st.loc
      (releasePin st.loc.seg { s with engine := { s.engine with stream := none } }) = u)
    (slot : SlotOpen u) (request : u.engine.request = some q) (unbroken : u.engine.breaking = none) :
    streamCorrupt st q.ns s = concluded q .corrupt (le 4 st.version) u := by
  unfold streamCorrupt
  dsimp only
  rw [removal]
  exact endRequest_concludes slot unbroken request _ _ (omitted_of_ne_ok _ (by decide) _)

/-- Settles O54: `copyLost` by the copy's owner, and `streamCorrupt` with the pin awaited or not. -/
theorem lostRecordLeavesTheDirectory : Obligations.LostRecordLeavesTheDirectory := by
  refine ⟨?_, ?_, ?_, ?_⟩
  · intro s c e length v h slot copy kept owner victim found live version at_ dir t d lowest
    have lost : copyLost c { s with ctrl := s.ctrl.rest } = clearCopy t := by
      unfold copyLost
      rw [owner]
      dsimp only
      rw [lostRemoval_removes (s := { s with ctrl := s.ctrl.rest }) ⟨slot.slot, slot.quiet⟩ found live version
        at_]
    rw [exec_copy_lost h copy kept, lost, clearCopy_reads h (by rfl) (by rfl) victim lowest]
  · intro s c v h slot copy kept victim t walksOn named
    have next := exec_copy_lost h copy kept
    refine ⟨fun owner unnamed d lowest => ?_, fun p owner mem match_ d lowest => ?_,
      fun id x head owner key found sn at_ ready free isHead sound => ?_⟩
    · have lost : copyLost c { s with ctrl := s.ctrl.rest } = clearCopy t := by
        unfold copyLost
        rw [owner]
        exact congrArg clearCopy (groupLost_stays (s := t) unnamed)
      rw [next, lost, clearCopy_reads h (by rfl) (by rfl) victim lowest]
    · have lost := groupLost_fails (s := t) (c := c) ⟨slot.slot, slot.quiet⟩ mem match_
      have cleared : copyLost c t = clearCopy (groupLost c t) := by
        unfold copyLost
        rw [owner]
      rw [next, cleared, lost, clearCopy_reads h (by rfl) (by rfl) victim lowest]
    · intro r loc fits
      have lost : copyLost c { s with ctrl := s.ctrl.rest } =
          bufferCopy c r (replied (Notice.recordLost 0 true 1 x.sn [x.id]).out t) := by
        unfold copyLost
        rw [owner]
        dsimp only
        rw [settingMatch_some (x := x) key (by exact found) sn at_]
        dsimp only
        rw [raiseLost, raise_open _ (by exact ⟨slot.slot, slot.quiet⟩)]
        rfl
      rw [next, lost, bufferCopy_places h (by rfl) c (by exact ready) (by exact free) (by exact isHead)
        (by exact sound) (by exact fits)]
      rfl
  · intro s st q e h room quiet request stream unbroken other found live version at_
    have released : releasePin st.loc.seg
        { ({ s with ctrl := s.ctrl.rest } : State) with engine := { s.engine with stream := none } } =
        { s with
          ctrl := s.ctrl.rest
          engine := { s.engine with stream := none }
          log := { s.log with
            segs := s.log.segs.modify st.loc.seg fun e => { e with pin := false } } } :=
      releasePin_plain fun waits => absurd waits other
    rw [exec_first_read_fails h request stream,
      streamCorrupt_concludes (q := q) ((congrArg _ released).trans (lostRemoval_removes (e := e)
        ⟨Nat.lt_succ_of_lt room, quiet⟩ found live version at_))
        ⟨by simpa [replied] using Nat.succ_lt_succ room, quiet⟩ request unbroken]
    rfl
  · intro s st q h slot request stream unbroken waits victim sound moved
    have released : releasePin st.loc.seg
        { ({ s with ctrl := s.ctrl.rest } : State) with engine := { s.engine with stream := none } } =
        { s with
          ctrl := { s.ctrl with cur := some (.eraseMark st.loc.seg) }
          engine := { s.engine with stream := none }
          reclaim := { s.reclaim with state := .erasing }
          log := { s.log with
            segs := s.log.segs.modify st.loc.seg fun e => { e with pin := false } } } := by
      rw [releasePin_erases (by exact waits) (by exact victim) (by exact sound),
        ask_rest h (by rfl) (by simp)]
      rfl
    rw [exec_first_read_fails h request stream,
      streamCorrupt_concludes (q := q) ((congrArg _ released).trans (lostRemoval_stays moved))
        ⟨slot.slot, slot.quiet⟩ request unbroken]
    rfl

end Sys2Proof.Machine
end

section
/-!
PROOFS. The pauses of an erase, and what is served while it stands paused (R58, R82): O56.
-/

namespace Sys2Proof.Machine

open Sys2Proof

/-- A request of the engine is admitted beside a running erase. -/
theorem admits_beside_erase {c : Controller} {v : Nat} {op : ArrayOp} (erases : c.cur = some (.erase v))
    (empty : c.queue = []) (other : op.requester ≠ .reclaim) : c.admits op = true := by
  refine admits_of_none fun o mem => ?_
  simp only [Controller.outstanding, erases, empty, Option.toList_some, List.append_nil,
    List.cons_append, List.nil_append, List.mem_cons, Option.mem_toList, Option.map_eq_some_iff] at mem
  rcases mem with rfl | ⟨w, _, rfl⟩ <;> exact other.symm

/-- A read that finds an erase running pauses it, below 16 pauses (R82). -/
theorem ask_pauses {s : State} {v : Nat} {op : ArrayOp} (erases : s.ctrl.cur = some (.erase v))
    (empty : s.ctrl.queue = []) (other : op.requester ≠ .reclaim) (few : s.ctrl.pauseCount < 16) :
    ask op s = { s with
      ctrl := { s.ctrl with
        cur := some op, queue := [], paused := some v, pauseCount := s.ctrl.pauseCount + 1 }
      reclaim := { s.reclaim with state := .erasePaused } } := by
  unfold ask arrive
  rw [if_pos (admits_beside_erase erases empty other), erases]
  dsimp only
  rw [if_pos (by exact few), pauseErase, empty]

/-- With 16 pauses taken it waits (R82). -/
theorem ask_unpaused {s : State} {v : Nat} {op : ArrayOp} (erases : s.ctrl.cur = some (.erase v))
    (empty : s.ctrl.queue = []) (other : op.requester ≠ .reclaim) (many : 16 ≤ s.ctrl.pauseCount) :
    ask op s = { s with ctrl := { s.ctrl with queue := [op] } } := by
  unfold ask arrive
  rw [if_pos (admits_beside_erase erases empty other), erases]
  dsimp only
  rw [if_neg (by exact Nat.not_lt.2 many), empty]
  rfl

/-- With nothing held back the controller goes on with what waits. -/
theorem completeOp_unheld {s : State} (held : s.ctrl.held = []) :
    completeOp s = resume { s.ctrl with cur := none } s := by
  unfold completeOp Controller.release
  dsimp only
  rw [held]
  rfl

/-- With nothing waiting the paused erase resumes (R82). -/
theorem completeOp_resumes {s : State} {v : Nat} (held : s.ctrl.held = []) (empty : s.ctrl.queue = [])
    (paused : s.ctrl.paused = some v) :
    completeOp s = { s with
      ctrl := { s.ctrl with cur := some (.erase v), paused := none }
      reclaim := { s.reclaim with state := .erasing } } := by
  rw [completeOp_unheld held, resume]
  dsimp only
  rw [empty]
  dsimp only
  rw [paused]

/-- What waits is served in turn (R58). -/
theorem completeOp_serves {s : State} {op : ArrayOp} {more : List ArrayOp} (held : s.ctrl.held = [])
    (waits : s.ctrl.queue = op :: more) (other : ∀ w, op ≠ .erase w) :
    completeOp s = { s with ctrl := { s.ctrl with cur := some op, queue := more } } := by
  rw [completeOp_unheld held, resume]
  dsimp only
  rw [waits]
  cases op with
  | erase w => exact absurd rfl (other w)
  | _ => rfl

/-- Settles O56: the read's arrival, and the three completions that find an erase paused. -/
theorem eraseIsPausedAtMostSixteenTimes : Obligations.EraseIsPausedAtMostSixteenTimes := by
  refine ⟨?_, ?_⟩
  · intro s f rest key e length v h kind form found live erases empty t
    have next := exec_get_of_live h kind form found live
    refine ⟨fun few => ?_, fun many => ?_⟩
    · rw [next, ask_pauses (by exact erases) (by exact empty) (by simp [ArrayOp.requester]) (by exact few)]
      rfl
    · rw [next, ask_unpaused (by exact erases) (by exact empty) (by simp [ArrayOp.requester]) (by exact many)]
      rfl
  · intro s v powered rst paused held served
    have runs : running s = true := by rw [running, powered, rst]; rfl
    have serves {c : Instr} {t : State} (ctrl : t.ctrl = s.ctrl) (reclaim : t.reclaim = s.reclaim)
        (next : exec c s = .next (completeOp t)) : served c t := by
      refine ⟨fun empty => ?_, fun op more waits other => ?_⟩
      · rw [next, completeOp_resumes (by rw [ctrl]; exact held) (by rw [ctrl]; exact empty)
          (by rw [ctrl]; exact paused), ctrl, reclaim]
      · rw [next, completeOp_serves (by rw [ctrl]; exact held) (by rw [ctrl]; exact waits) other, ctrl]
    refine ⟨fun h cur => serves rfl rfl ?_, fun loc ok cur => ?_, fun loc cur => ?_⟩
    · have next : exec (.filledMarkDone true) s = .next (filledMarkDoneEffect true s) :=
        congrArg _ (if_pos runs)
      rw [next, filledMarkDoneEffect, cur]
      rfl
    · have next : exec (.getFirstReadDone ok) s = .next (getFirstReadDoneEffect ok s) :=
        congrArg _ (if_pos runs)
      rw [getFirstReadDoneEffect, cur] at next
      exact serves rfl rfl next
    · have next : exec .chunkReadDone s = .next (chunkReadDoneEffect s) := congrArg _ (if_pos runs)
      rw [chunkReadDoneEffect, cur] at next
      exact serves rfl rfl next

end Sys2Proof.Machine
end

section
/-!
PROOFS. The victim of a pass: its erase, its retirement, the entry into READ_ONLY behind that, and the record
that waits at a pass completion (R57, R61, R81 to R87): O55.
-/

namespace Sys2Proof.Machine

open Sys2Proof

/-! ## The ERASE mark, the erase and the ERASED mark -/

theorem exec_eraseMarkDone {s : State} {v : Nat} (h : Running s (.eraseMark v)) (ok : Bool) :
    exec (.eraseMarkDone ok) s = .next
      (if ok then ask (.erase v)
          (modSeg v (fun e => { e with state := .erasing }) (markEnded v .erase (.valid 0) s))
      else retireVictim v .markFailure (markEnded v .erase .failed s)) := by
  have next : exec (.eraseMarkDone ok) s = .next (eraseMarkDoneEffect ok s) := congrArg _ (if_pos h.runs)
  rw [next, eraseMarkDoneEffect, h.cur]
  dsimp only
  rw [completeOp_writeMark h]
  cases ok with
  | true => simp only [if_true]
  | false => simp only [Bool.false_eq_true, if_false]

theorem exec_eraseDone {s : State} {v : Nat} (h : Running s (.erase v)) (ok : Bool) :
    exec (.eraseDone ok) s = .next
      (if ok then ask (.erasedMark v (nextEraseCount (segAt s.log.segs v).eraseCount))
          { eraseArray v s with ctrl := s.ctrl.rest }
      else retireVictim v .eraseFailure { halfErase v s with ctrl := s.ctrl.rest }) := by
  have next : exec (.eraseDone ok) s = .next (eraseDoneEffect ok s) := congrArg _ (if_pos h.runs)
  rw [next, eraseDoneEffect, h.cur]
  dsimp only
  rw [completeOp_running (t := eraseArray v s) h rfl, completeOp_running (t := halfErase v s) h rfl]

theorem exec_erasedMarkDone {s : State} {v count : Nat} (h : Running s (.erasedMark v count)) (ok : Bool) :
    exec (.erasedMarkDone ok) s = .next
      (if ok then completePass (freedBytes s) (buriedDrop v
          (modSeg v (fun e => e.pooled count) (markEnded v .erased (.valid count) s)))
      else retireVictim v .markFailure (markEnded v .erased .failed s)) := by
  have next : exec (.erasedMarkDone ok) s = .next (erasedMarkDoneEffect ok s) := congrArg _ (if_pos h.runs)
  rw [next, erasedMarkDoneEffect, h.cur]
  dsimp only
  rw [completeOp_writeMark h]
  cases ok with
  | true => simp only [if_true]; rfl
  | false => simp only [Bool.false_eq_true, if_false]

/-- The erase of the victim starts on the controller at rest, with no pauses yet (R82). -/
theorem ask_erase {s t : State} {cur : ArrayOp} (h : Running s cur) (rests : t.ctrl = s.ctrl.rest)
    (v : Nat) :
    ask (.erase v) t = { t with ctrl := { s.ctrl with cur := some (.erase v), pauseCount := 0 } } := by
  have idle : t.ctrl.cur = none := by rw [rests]; rfl
  have empty : t.ctrl.queue = [] := by rw [rests]; exact h.empty
  have unpaused : t.ctrl.paused = none := by rw [rests]; exact h.unpaused
  rw [ask_idle _ _ idle (admits_idle _ idle empty (.inr unpaused)), rests]
  rfl

/-- A victim retired by a failing mark or erase, with nothing due after it. -/
theorem retireVictim_failed {s t : State} {cur : ArrayOp} (h : Running s cur) {v : Nat}
    {cause : RetireCause} (slot : SlotOpen s) (idle : s.engine.state = .idle) (job : s.engine.job = none)
    (due : NothingDue (victimRetired v cause s) (victimRetired v cause s).dir)
    (same : ∃ array free, t = { s with array := array, free := free }) :
    retireVictim v cause { t with ctrl := s.ctrl.rest } = victimRetired v cause t := by
  obtain ⟨array, free, rfl⟩ := same
  exact retireVictim_idle h rfl cause ⟨slot.slot, slot.quiet⟩ idle job
    ⟨due.engine, due.copy, due.foreground, due.background, due.tidy, due.erased, due.buried⟩

theorem halfErase_eq (v : Nat) (s : State) :
    ∃ keepsMarks keepsRecord, halfErase v s = { s with
      array := s.array.modify v (eraseLeft keepsMarks keepsRecord s.free), free := s.free + 1 } :=
  ⟨Config.eraseKeepsMarks s.free, Config.eraseKeepsRecord s.free, rfl⟩

/-- The walk ends on a suspect victim that no pin holds (R79). -/
theorem walkStep_retires {s : State} {v : Nat} (victim : s.reclaim.victim = some v)
    (done : lowestNamed v s.reclaim.position s = none) (unpinned : (segAt s.log.segs v).pin = false)
    (suspect : (segAt s.log.segs v).suspect = true) :
    walkStep s = retireVictim v .suspect { s with reclaim := { s.reclaim with copy := none } } := by
  unfold walkStep walkStepWith
  rw [victim]
  dsimp only
  rw [done]
  dsimp only
  unfold leaveWalkWith
  rw [if_neg (by simp [unpinned]), if_pos (by exact suspect)]
  rfl

/-! ## A retirement that makes the device READ_ONLY (R61, R62) -/

/-- A pass completes in READ_ONLY, with the engine IDLE and fewer than 4 segments in use. -/
theorem completePass_readOnly {s : State} (freed : Nat) (idle : s.engine.state = .idle)
    (job : s.engine.job = none) (device : s.log.device = .readOnly) (low : inUse s.log.segs < 4) :
    completePass freed s = { s with
      reclaim := { s.reclaim.clearPass with background := decide (reclaimable s.log.segs ≠ 0) } } := by
  have still : tidyRunning (passCleared s) = false := tidyRunning_idle idle
  have tested : testBackground (passCleared s) = { passCleared s with
      reclaim := { s.reclaim.clearPass with background := decide (reclaimable s.log.segs ≠ 0) } } := by
    rw [testBackground_flagTested, flagTested, flagAfterTest_low (by exact low)]
    rfl
  unfold completePass completePassWith
  rw [show ({ s with reclaim := s.reclaim.clearPass } : State) = passCleared s from rfl,
    countPass_idle still, reexamine_idle (by exact job), tested, tidyTest_idle (by exact still),
    weighPass_readOnly (by exact device)]
  rfl

/-- The victim is out of use, its notice raised, and the pass not yet completed. -/
def victimGone (v : Nat) (cause : RetireCause) (ctrl : Controller) (s : State) : State :=
  replied (retiredNotice v cause s.log.segs).out
    { s with
      ctrl := ctrl
      dir := s.dir.filter fun e => e.isLive || decide (e.loc.seg ≠ v)
      log := { s.log with segs := retired v s.log.segs } }

/-- A retirement leaves fewer than 4 segments in use; what the engine's record was refused left `u`. -/
theorem retireVictim_enters {r s u : State} {cur : ArrayOp} (h : Running r cur)
    (rests : s.ctrl = r.ctrl.rest) {v : Nat} {cause : RetireCause} (slot : SlotOpen s)
    (ready : s.log.device = .ready) (low : inUse (retired v s.log.segs) < 4)
    (refused : refuseEngine { victimGone v cause { r.ctrl with cur := some (.retiredMark v) } s with
      log := { s.log with segs := retired v s.log.segs, device := .readOnly } } = u)
    (log : u.log = { s.log with
      segs := retired v s.log.segs, device := .readOnly, engineWaits := u.log.engineWaits })
    (free : s.log.grant = none) (copies : s.log.copyWaits = false) (open_ : SlotOpen u)
    (idle : u.engine.state = .idle) (job : u.engine.job = none) :
    retireVictim v cause s =
      { replied (Notice.readOnly .retirement (inUse (retired v s.log.segs)) s.log.sn).out
          (groupFailed u) with
        reclaim := { u.reclaim.clearPass with
          background := decide (reclaimable (retired v s.log.segs) ≠ 0) } } := by
  have asked : raiseRetired v cause (buriedDrop v (modSeg v SegEntry.retire (ask (.retiredMark v) s))) =
      victimGone v cause { r.ctrl with cur := some (.retiredMark v) } s := by
    rw [ask_rest h rests (by simp), raiseRetired_open (segs := s.log.segs) (by rfl)
      (by exact ⟨slot.slot, slot.quiet⟩)]
    rfl
  have copy : refuseCopy u = u := refuseCopy_other (by rw [log]; exact copies)
    (by rw [log]; exact fun g granted => nomatch free.symm.trans granted)
  have entered : retirementTest (victimGone v cause { r.ctrl with cur := some (.retiredMark v) } s) =
      replied (Notice.readOnly .retirement (inUse (retired v s.log.segs)) s.log.sn).out (groupFailed u) := by
    have notice : readOnlyNotice .retirement (groupFailed u) =
        .readOnly .retirement (inUse (retired v s.log.segs)) s.log.sn := by
      change Notice.readOnly .retirement (inUse u.log.segs) u.log.sn = _
      rw [log]
    rw [← notice]
    exact (if_pos low).trans (enterReadOnly_raises .retirement ready
      ((congrArg (fun x => groupFailed (refuseCopy x)) refused).trans (congrArg groupFailed copy))
      ⟨open_.slot, open_.quiet⟩)
  have segs : u.log.segs = retired v s.log.segs := by rw [log]
  unfold retireVictim retireVictimWith
  dsimp only
  rw [asked, entered]
  refine (completePass_readOnly (s := replied
    (Notice.readOnly .retirement (inUse (retired v s.log.segs)) s.log.sn).out (groupFailed u)) 0 idle job
    (by exact (congrArg Log.device log)) ?_).trans ?_
  · change inUse u.log.segs < 4
    rw [segs]
    exact low
  · rw [← segs]
    rfl

/-- The record that waits for space ends READ_ONLY (R57, R62). -/
theorem refuseEngine_waiting {s : State} {j : Job} {q : Request} (free : s.log.grant = none)
    (waits : s.engine.state = .waitingSpace) (job : s.engine.job = some j)
    (request : s.engine.request = some q) (unbroken : s.engine.breaking = none) (slot : SlotOpen s)
    (payload : ∀ marker done left, j.purpose ≠ .formatRewrite marker done left) :
    refuseEngine s = concluded q .readOnly [] (unclaimed s) := by
  unfold refuseEngine
  rw [free]
  dsimp only
  rw [if_pos (by simp [waits])]
  exact endJob_concludes job nofun (endPayload_nil payload) rfl request unbroken ⟨slot.slot, slot.quiet⟩

/-! ## The record that waits for space, at a pass completion (R57, R86, R87) -/

/-- The record that waits for space has no claim and no grant. -/
theorem waitsForSpace_free {s : State} (waits : s.engine.state = .waitingSpace)
    (unclaimed : s.log.engineWaits = false) (free : s.log.grant = none) : waitsForSpace s = true := by
  unfold waitsForSpace
  rw [waits, unclaimed, free]
  rfl

section

variable {s : State} {j : Job}

/-- The record is placed in the head, its need over (R57). -/
theorem reexamine_places {r : State} {cur : ArrayOp} (h : Running r cur) (rests : s.ctrl = r.ctrl.rest)
    {head : Nat} (waits : s.engine.state = .waitingSpace) (unclaimed : s.log.engineWaits = false)
    (job : s.engine.job = some j) (plain : j.purpose ≠ .commit) (assembly : s.engine.assembly = none)
    (places : PlacesAtOnce s head j.record.size) : reexamine s = placed j head s := by
  have fit := fitsHead_of places
  have may : engineMayPlace j.record.size s = true := by
    unfold engineMayPlace
    rw [fit]
    rfl
  have taken : takeAppendPoint j { s with reclaim := { s.reclaim with foreground := false } } =
      placed j head s := by
    rw [placed_inHand job assembly, takeAppendPoint, commitLost_other plain, if_neg Bool.false_ne_true,
      placeOrOpen]
    dsimp only
    rw [places.isHead]
    dsimp only
    rw [if_pos (by exact fit), placeAt_engine (by rfl) (by rfl) head (by exact places.more)]
    dsimp only
    rw [ask_rest h (op := .programRecord _ _) (by exact rests) (by simp)]
    dsimp only
    rw [unclaimed, rests]
    rfl
  unfold reexamine
  rw [job]
  dsimp only
  rw [if_pos (waitsForSpace_free waits unclaimed places.free), if_pos may, if_pos (by exact places.free)]
  exact taken

/-- The record opens a head where the floor allows one, its need over (R54, R57). -/
theorem reexamine_opens {r : State} {cur : ArrayOp} (h : Running r cur) (rests : s.ctrl = r.ctrl.rest)
    {w : Nat} (waits : s.engine.state = .waitingSpace) (unclaimed : s.log.engineWaits = false)
    (free : s.log.grant = none) (job : s.engine.job = some j) (plain : j.purpose ≠ .commit)
    (full : fitsHead s.log.segs j.record.size = false) (floor : 2 ≤ erasedCount s.log.segs)
    (more : s.log.stamp ≠ 4294967295) (choice : chooseHead s.log.segs = some w) :
    reexamine s = { s with
      ctrl := { r.ctrl with cur := some (.openedMark w s.log.stamp) }
      reclaim := { s.reclaim with foreground := false }
      log := { s.log with
        stamp := s.log.stamp + 1
        grant := some
          { claimant := .engine, record := j.record, retry := false, stage := .opening w
            abandoned := false } } } := by
  have may : engineMayPlace j.record.size s = true := by
    unfold engineMayPlace
    rw [decide_eq_true floor, Bool.or_true]
  unfold reexamine
  rw [job]
  dsimp only
  rw [if_pos (waitsForSpace_free waits unclaimed free), if_pos may, if_pos (by exact free),
    takeAppendPoint, commitLost_other plain, if_neg Bool.false_ne_true,
    placeOrOpen_full (by exact full), openHead_asks (by exact more) (by exact choice),
    ask_rest h (by exact rests) (by simp)]
  rfl

/-- The record waits on where reclaim can still free enough, and else fails NO_SPACE (R56, R57). -/
theorem reexamine_full (waits : s.engine.state = .waitingSpace) (unclaimed : s.log.engineWaits = false)
    (free : s.log.grant = none) (job : s.engine.job = some j)
    (full : fitsHead s.log.segs j.record.size = false) (few : erasedCount s.log.segs ≤ 1) :
    reexamine s =
      if j.record.size ≤ reclaimable s.log.segs then s
      else endJob .noSpace (raiseSpaceLow j.record.size s) := by
  unfold reexamine
  rw [job]
  dsimp only
  rw [if_pos (waitsForSpace_free waits unclaimed free),
    if_neg (by rw [engineMayPlace_full full few]; exact Bool.false_ne_true)]

end

/-- What follows the re-examination, which left `u`: the thresholds, and a pass where one is due (R70, R72). -/
theorem completePass_settles {s t u : State} {cur : ArrayOp} (h : Running s cur) (freed : Nat)
    (idle : tidyRunning (passCleared t) = false) (examined : reexamine (passCleared t) = u)
    (still : tidyRunning u = false) (tidy : u.reclaim.tidyRemaining = 0)
    (rests : u.reclaim.state = .idle) (ready : u.log.device = .ready)
    (ctrl : u.ctrl = s.ctrl.rest ∨
      ∃ op, u.ctrl = { s.ctrl with cur := some op } ∧ op.requester = .logManager) :
    let tested := flagTested u.log.segs u.dir u
    let asked (w : Nat) : Controller :=
      if u.ctrl.cur = none then { u.ctrl with cur := some (.reclaimMark w) }
      else { u.ctrl with queue := [.reclaimMark w] }
    (u.reclaim.foreground = false → tested.reclaim.background = false →
      completePass freed t = tested) ∧
      ∀ w, u.reclaim.foreground = true ∨ tested.reclaim.background = true →
        NextVictim u.log.segs w → completePass freed t = passBegun w (asked w) tested := by
  intro tested asked
  have completes : completePass freed t = weighPass tested := by
    have test : tidyTest tested = tested := tidyTest_idle (by exact still)
    unfold completePass completePassWith
    rw [show ({ t with reclaim := t.reclaim.clearPass } : State) = passCleared t from rfl,
      countPass_idle idle, examined, testBackground_flagTested, test]
  refine ⟨fun need flag => ?_, fun w due victim => ?_⟩
  · rw [completes, weighPass_needless (by exact need) (by exact tidy) flag]
  · rw [completes, weighPass_begins (w := w) (by exact rests) (by exact ready)
      (by exact due.imp_right .inr) (by exact victim)]
    rcases ctrl with ctrl | ⟨op, ctrl, logs⟩
    · have free : asked w = { s.ctrl with cur := some (.reclaimMark w) } := by
        change (if u.ctrl.cur = none then _ else _) = _
        rw [if_pos (by rw [ctrl]; rfl), ctrl]
        rfl
      rw [ask_rest h (by exact ctrl) (by simp), free]
      rfl
    · have busy : asked w = { s.ctrl with cur := some op, queue := [.reclaimMark w] } := by
        change (if u.ctrl.cur = none then _ else _) = _
        rw [if_neg (by rw [ctrl]; simp), ctrl]
      have admitted : u.ctrl.admits (.reclaimMark w) = true := by
        refine admits_of_none fun o mem => ?_
        have same : o = op := by
          simpa [Controller.outstanding, ctrl, h.empty, h.unpaused] using mem
        rw [same, logs]
        nofun
      rw [ask_waits (.reclaimMark w) op _ (by exact congrArg Controller.cur ctrl)
        (by rintro v rfl; cases logs) (by exact admitted), busy]
      refine congrArg (fun c => passBegun w c tested) ?_
      change ({ u.ctrl with queue := u.ctrl.queue ++ [.reclaimMark w] } : Controller) = _
      rw [ctrl]
      simp only [h.empty, List.nil_append]

/-! ## O55 -/

section

variable {s : State} {v : Nat}

/-- The ERASED mark puts the segment in the pool, and the pass completes with nothing due. -/
theorem exec_erasedMark_pools {count : Nat} (h : Running s (.erasedMark v count))
    (idle : s.engine.state = .idle) (job : s.engine.job = none) {t : State}
    (pooled : t = passCleared (buriedDrop v
      (modSeg v (fun e => e.pooled count) (markEnded v .erased (.valid count) s))))
    (due : NothingDue t t.dir) : exec (.erasedMarkDone true) s = .next t := by
  subst pooled
  rw [exec_erasedMarkDone h, if_pos rfl]
  exact congrArg _ (completePass_idle _ idle job due)

/-- A failing mark of the pass retires the victim, with nothing due after it. -/
theorem exec_mark_retires {c : Instr} {cur : ArrayOp} {p : MarkPos} (h : Running s cur)
    (next : exec c s = .next (retireVictim v .markFailure (markEnded v p .failed s))) (slot : SlotOpen s)
    (idle : s.engine.state = .idle) (job : s.engine.job = none)
    (due : NothingDue (victimRetired v .markFailure s) (victimRetired v .markFailure s).dir) :
    exec c s = .next (victimRetired v .markFailure { s with array := marked v p .failed s.array }) := by
  rw [next]
  exact congrArg _ (retireVictim_failed (t := { s with array := marked v p .failed s.array }) h slot idle job
    due ⟨_, s.free, rfl⟩)

theorem exec_erase_retires (h : Running s (.erase v)) (slot : SlotOpen s) (idle : s.engine.state = .idle)
    (job : s.engine.job = none)
    (due : NothingDue (victimRetired v .eraseFailure s) (victimRetired v .eraseFailure s).dir) :
    ∃ keepsMarks keepsRecord, exec (.eraseDone false) s =
      .next (victimRetired v .eraseFailure { s with
        array := s.array.modify v (eraseLeft keepsMarks keepsRecord s.free)
        free := s.free + 1 }) := by
  obtain ⟨keepsMarks, keepsRecord, half⟩ := halfErase_eq v s
  refine ⟨keepsMarks, keepsRecord, ?_⟩
  rw [exec_eraseDone h, if_neg Bool.false_ne_true, half]
  exact congrArg _ (retireVictim_failed (t := { s with
    array := s.array.modify v (eraseLeft keepsMarks keepsRecord s.free), free := s.free + 1 })
    h slot idle job due ⟨_, _, rfl⟩)

/-- A suspect victim is retired when its walk ends (R79, R84). -/
theorem exec_reclaimMark_retires (h : Running s (.reclaimMark v)) (victim : s.reclaim.victim = some v)
    (copying : s.reclaim.state = .copying) (copy : s.reclaim.copy = none)
    (done : lowestNamed v s.reclaim.position s = none) (unpinned : (segAt s.log.segs v).pin = false)
    (slot : SlotOpen s) (idle : s.engine.state = .idle) (job : s.engine.job = none)
    (due : NothingDue (victimRetired v .suspect s) (victimRetired v .suspect s).dir) (ok : Bool)
    (suspect : (segAt (reclaimMarked v ok s).log.segs v).suspect = true) :
    exec (.reclaimMarkDone ok) s = .next (victimRetired v .suspect (reclaimMarked v ok s)) := by
  have count : erasedCount (retired v (reclaimMarked v ok s).log.segs) =
      erasedCount (retired v s.log.segs) := by
    cases ok with
    | true => rfl
    | false =>
      have swapped : retired v (reclaimMarked v false s).log.segs =
          (retired v s.log.segs).modify v fun e => { e with suspect := true } := by
        change retired v (s.log.segs.modify v _) = _
        unfold retired
        rw [List.modify_modify_eq, List.modify_modify_eq]
        rfl
      rw [swapped]
      exact erasedCount_modify _ _ _ fun _ => rfl
  rw [exec_reclaimMark_walks h victim copying copy, walkStep_retires (v := v) (by exact victim)
    (by exact done) (by rw [segAt_reclaimMarked_pin]; exact unpinned) suspect]
  exact congrArg _ (retireVictim_idle h rfl .suspect ⟨slot.slot, slot.quiet⟩ idle job
    ⟨due.engine, due.copy, due.foreground, due.background, due.tidy, by
      exact due.erased.trans_eq count.symm, due.buried⟩)

end

/-- A record with no claim and no need has none to give up. -/
theorem unclaimed_free {s : State} (free : s.log.engineWaits = false)
    (need : s.reclaim.foreground = false) : unclaimed s = s := by
  have reclaim : { s.reclaim with foreground := false } = s.reclaim := by rw [← need]
  rw [unclaimed_eq free, reclaim]

theorem tidyRunning_unbusy {s : State} (unbusy : s.engine.state ≠ .busy) : tidyRunning s = false := by
  unfold tidyRunning
  cases s.engine.request with
  | none => rfl
  | some r => simp [unbusy]

theorem tidyRunning_other {s : State} {q : Request} (request : s.engine.request = some q)
    (other : q.kind ≠ 0x18) : tidyRunning s = false := by
  unfold tidyRunning
  rw [request]
  dsimp only
  rw [show decide (q.kind = kTidy) = false from decide_eq_false other, Bool.and_false]

/-- An engine that is IDLE, or that waits for space, has its device enter READ_ONLY behind the retirement. -/
theorem exec_eraseMark_enters {u : State} {s : State} {v : Nat} (h : Running s (.eraseMark v))
    (room : s.replies.length < 6) (quiet : s.notices = []) (ready : s.log.device = .ready)
    (free : s.log.grant = none) (copies : s.log.copyWaits = false) (low : inUse (retired v s.log.segs) < 4)
    (refused : refuseEngine { victimGone v .markFailure { s.ctrl with cur := some (.retiredMark v) }
        (markEnded v .erase .failed s) with
      log := { s.log with segs := retired v s.log.segs, device := .readOnly } } = u)
    (log : u.log = { s.log with
      segs := retired v s.log.segs, device := .readOnly, engineWaits := u.log.engineWaits })
    (open_ : SlotOpen u) (idle : u.engine.state = .idle) (job : u.engine.job = none) :
    exec (.eraseMarkDone false) s = .next
      { replied (Notice.readOnly .retirement (inUse (retired v s.log.segs)) s.log.sn).out
          (groupFailed u) with
        reclaim := { u.reclaim.clearPass with
          background := decide (reclaimable (retired v s.log.segs) ≠ 0) } } := by
  rw [exec_eraseMarkDone h, if_neg Bool.false_ne_true]
  exact congrArg _ (retireVictim_enters (s := markEnded v .erase .failed s) h rfl ⟨by
    exact room.trans (by decide), quiet⟩ ready low refused log free copies open_ idle job)

/-- The victim's retirement, behind a failing ERASE mark, has made the device READ_ONLY. -/
def enteredAtErase (v : Nat) (s : State) : State :=
  readOnlyByRetirement (victimRetired v .markFailure { s with array := marked v .erase .failed s.array })

theorem enteredAtErase_notice (v : Nat) (s : State) :
    readOnlyNotice .retirement (enteredAtErase v s) =
      .readOnly .retirement (inUse (retired v s.log.segs)) s.log.sn := rfl

section

variable {s : State} {v : Nat} (h : Running s (.eraseMark v)) (room : s.replies.length < 6)
  (quiet : s.notices = []) (ready : s.log.device = .ready) (free : s.log.grant = none)
  (copies : s.log.copyWaits = false) (low : inUse (retired v s.log.segs) < 4)

include h room quiet ready free copies low

theorem exec_eraseMark_enters_idle (idle : s.engine.state = .idle) (job : s.engine.job = none)
    (waits : s.log.engineWaits = false) (need : s.reclaim.foreground = false) :
    exec (.eraseMarkDone false) s =
      .next (replied (readOnlyNotice .retirement (enteredAtErase v s)).out (enteredAtErase v s)) := by
  rw [enteredAtErase_notice]
  exact exec_eraseMark_enters h room quiet ready free copies low
    ((refuseEngine_idle (by exact idle) (by exact waits)
      (by exact fun g granted => nomatch free.symm.trans granted)).trans
      (unclaimed_free (by exact waits) (by exact need)).symm) rfl
    ⟨by simp [unclaimed, victimGone, replied, markEnded]; omega, quiet⟩ idle job

theorem exec_eraseMark_enters_waiting {j : Job} {q : Request} (waits : s.engine.state = .waitingSpace)
    (job : s.engine.job = some j) (request : s.engine.request = some q)
    (unbroken : s.engine.breaking = none)
    (payload : ∀ marker done left, j.purpose ≠ .formatRewrite marker done left) :
    exec (.eraseMarkDone false) s = .next (replied (readOnlyNotice .retirement (enteredAtErase v s)).out
      (concluded q .readOnly [] (enteredAtErase v s))) := by
  rw [enteredAtErase_notice]
  exact exec_eraseMark_enters h room quiet ready free copies low
    (refuseEngine_waiting (q := q) (by exact free) (by exact waits) (by exact job) (by exact request)
      (by exact unbroken) ⟨by simp [victimGone, replied, markEnded]; omega, quiet⟩ payload) rfl
    ⟨by simp [concluded, unclaimed, victimGone, replied, markEnded]; omega, quiet⟩ rfl rfl

end

section

variable {s : State} {v count : Nat} {j : Job} {q : Request}

/-- The segment is in the pool, and the pass that erased it has none in hand any more (R83, R86). -/
def passErased (v count : Nat) (s : State) : State :=
  passCleared (buriedDrop v
    (modSeg v (fun e => e.pooled count) (markEnded v .erased (.valid count) s)))

/-- A pass completes through the ERASED mark while the engine's record waits for space. -/
structure WaitsAtErased (s : State) (v count : Nat) (j : Job) (q : Request) : Prop where
  run : Running s (.erasedMark v count)
  waits : s.engine.state = .waitingSpace
  job : s.engine.job = some j
  request : s.engine.request = some q
  other : q.kind ≠ 0x18
  unclaimed : s.log.engineWaits = false
  free : s.log.grant = none
  ready : s.log.device = .ready
  tidy : s.reclaim.tidyRemaining = 0
  plain : j.purpose ≠ .commit

/-- The step ends with the test of the thresholds over `u`, and with the pass that is then due. -/
def Settles (c : Instr) (s u : State) : Prop :=
  let tested := flagTested u.log.segs u.dir u
  let asked (w : Nat) : Controller :=
    if u.ctrl.cur = none then { u.ctrl with cur := some (.reclaimMark w) }
    else { u.ctrl with queue := [.reclaimMark w] }
  (u.reclaim.foreground = false → tested.reclaim.background = false → exec c s = .next tested) ∧
    ∀ w, u.reclaim.foreground = true ∨ tested.reclaim.background = true →
      NextVictim u.log.segs w → exec c s = .next (passBegun w (asked w) tested)

theorem WaitsAtErased.settles (h : WaitsAtErased s v count j q) {u : State}
    (examined : reexamine (passErased v count s) = u) (still : tidyRunning u = false)
    (none_ : u.reclaim.tidyRemaining = 0) (rests : u.reclaim.state = .idle)
    (device : u.log.device = .ready) (ctrl : u.ctrl = s.ctrl.rest ∨
      ∃ op, u.ctrl = { s.ctrl with cur := some op } ∧ op.requester = .logManager) :
    Settles (.erasedMarkDone true) s u := by
  have next := exec_erasedMarkDone h.run true
  rw [if_pos rfl] at next
  obtain ⟨quiet, begins⟩ := completePass_settles (t := buriedDrop v
    (modSeg v (fun e => e.pooled count) (markEnded v .erased (.valid count) s))) h.run (freedBytes s)
    (tidyRunning_unbusy (by exact h.waits.trans_ne nofun)) examined still none_ rests device ctrl
  exact ⟨fun need flag => next.trans (congrArg _ (quiet need flag)),
    fun w due victim => next.trans (congrArg _ (begins w due victim))⟩

theorem WaitsAtErased.places (h : WaitsAtErased s v count j q) (assembly : s.engine.assembly = none)
    {head : Nat} (places : PlacesAtOnce (passErased v count s) head j.record.size) :
    Settles (.erasedMarkDone true) s (placed j head (passErased v count s)) :=
  h.settles (reexamine_places h.run rfl h.waits h.unclaimed h.job h.plain assembly places)
    (tidyRunning_other h.request h.other) h.tidy rfl h.ready (.inr ⟨_, rfl, rfl⟩)

theorem WaitsAtErased.opens (h : WaitsAtErased s v count j q) {w : Nat}
    (full : fitsHead (passErased v count s).log.segs j.record.size = false)
    (floor : 2 ≤ erasedCount (passErased v count s).log.segs) (more : s.log.stamp ≠ 4294967295)
    (choice : chooseHead (passErased v count s).log.segs = some w) :
    Settles (.erasedMarkDone true) s { passErased v count s with
      ctrl := { s.ctrl with cur := some (.openedMark w s.log.stamp) }
      reclaim := { (passErased v count s).reclaim with foreground := false }
      log := { (passErased v count s).log with
        stamp := s.log.stamp + 1
        grant := some
          { claimant := .engine, record := j.record, retry := false, stage := .opening w
            abandoned := false } } } :=
  h.settles (reexamine_opens h.run rfl h.waits h.unclaimed h.free h.job h.plain full floor more choice)
    (tidyRunning_other h.request h.other) h.tidy rfl h.ready (.inr ⟨_, rfl, rfl⟩)

theorem WaitsAtErased.waits_on (h : WaitsAtErased s v count j q)
    (full : fitsHead (passErased v count s).log.segs j.record.size = false)
    (few : erasedCount (passErased v count s).log.segs ≤ 1)
    (enough : j.record.size ≤ reclaimable (passErased v count s).log.segs) :
    Settles (.erasedMarkDone true) s (passErased v count s) :=
  h.settles ((reexamine_full (s := passErased v count s) h.waits h.unclaimed h.free h.job full few).trans
    (if_pos enough)) (tidyRunning_other h.request h.other) h.tidy rfl h.ready (.inl rfl)

theorem WaitsAtErased.fails (h : WaitsAtErased s v count j q) {t : State}
    (erased : passErased v count s = t) (unbroken : s.engine.breaking = none)
    (full : fitsHead t.log.segs j.record.size = false) (few : erasedCount t.log.segs ≤ 1)
    (short : reclaimable t.log.segs < j.record.size) (room : s.replies.length < 7) (quiet : s.notices = [])
    (purpose : (∃ b, j.purpose = .put b) ∨ j.purpose = .delete) :
    Settles (.erasedMarkDone true) s (concluded q .noSpace []
      (replied (Notice.spaceLow (erasedCount t.log.segs) (reclaimable t.log.segs) j.record.size).out
        { groupFailed t with reclaim := { t.reclaim with foreground := false } })) := by
  subst erased
  have examined := reexamine_full (s := passErased v count s) h.waits h.unclaimed h.free h.job full few
  have more : (passErased v count s).replies.length + 1 < 8 := Nat.succ_lt_succ room
  have payload : j.endPayload = [] := by
    rcases purpose with ⟨b, purpose⟩ | purpose <;> rw [Job.endPayload, purpose]
  have effect (t : State) : jobGroupEffect j .noSpace t = groupFailed t :=
    jobGroupEffect_fails (.inr rfl) (purpose.imp_right .inl) t
  have ended (t : State) (job : t.engine.job = some j) (request : t.engine.request = some q)
      (unbroken : t.engine.breaking = none) (free : t.log.engineWaits = false) (slot : SlotOpen t) :
      endJob .noSpace t = concluded q .noSpace []
        (groupFailed { t with reclaim := { t.reclaim with foreground := false } }) := by
    rw [← unclaimed_eq free]
    exact endJob_concludes job (by decide) payload (effect _) request unbroken ⟨slot.slot, slot.quiet⟩
  rw [if_neg (Nat.not_le.2 short), raiseSpaceLow,
    raise_open (s := passErased v count s) _ ⟨Nat.lt_succ_of_lt room, quiet⟩,
    ended _ (by exact h.job) (by exact h.request) (by exact unbroken) (by exact h.unclaimed)
      (by exact ⟨by simpa [replied] using more, quiet⟩)] at examined
  exact h.settles examined (tidyRunning_unbusy nofun) h.tidy rfl h.ready (.inl rfl)

/-- The record that waits takes the append point, opens a head, waits on, or fails NO_SPACE (R57, R87). -/
theorem WaitsAtErased.reexamined (h : WaitsAtErased s v count j q) {t : State}
    (erased : passErased v count s = t) (assembly : s.engine.assembly = none)
    (unbroken : s.engine.breaking = none) :
    (∀ head, PlacesAtOnce t head j.record.size →
      Settles (.erasedMarkDone true) s (placed j head t)) ∧
      (fitsHead t.log.segs j.record.size = false →
        (∀ w, 2 ≤ erasedCount t.log.segs → s.log.stamp ≠ 4294967295 → chooseHead t.log.segs = some w →
          Settles (.erasedMarkDone true) s { t with
            ctrl := { s.ctrl with cur := some (.openedMark w s.log.stamp) }
            reclaim := { t.reclaim with foreground := false }
            log := { t.log with
              stamp := s.log.stamp + 1
              grant := some
                { claimant := .engine, record := j.record, retry := false, stage := .opening w
                  abandoned := false } } }) ∧
        (erasedCount t.log.segs ≤ 1 →
          (j.record.size ≤ reclaimable t.log.segs → Settles (.erasedMarkDone true) s t) ∧
          (reclaimable t.log.segs < j.record.size → s.replies.length < 7 → s.notices = [] →
            (∃ b, j.purpose = .put b) ∨ j.purpose = .delete →
            Settles (.erasedMarkDone true) s (concluded q .noSpace []
              (replied (Notice.spaceLow (erasedCount t.log.segs) (reclaimable t.log.segs) j.record.size).out
                { groupFailed t with reclaim := { t.reclaim with foreground := false } }))))) := by
  subst erased
  exact ⟨fun head places => h.places assembly places, fun full =>
    ⟨fun w floor more choice => h.opens full floor more choice, fun few =>
      ⟨fun enough => h.waits_on full few enough,
        fun short room quiet purpose => h.fails rfl unbroken full few short room quiet purpose⟩⟩⟩

end

/-- Settles O55: each mark's and the erase's completion in turn, then the pass completion with its
re-examination of the record that waits. -/
theorem victimIsErasedOrRetired : Obligations.VictimIsErasedOrRetired := by
  refine ⟨?_, ?_, ?_, ?_, ?_⟩
  · intro s v
    refine ⟨fun h => ?_, fun h => ?_⟩
    · rw [exec_eraseMarkDone h, if_pos rfl, ask_erase h (by rfl)]
      rfl
    · intro count
      rw [exec_eraseDone h, if_pos rfl, ask_rest h (by rfl) (by simp)]
      rfl
  · intro s v count h idle job segs t due
    exact exec_erasedMark_pools h idle job rfl due
  · intro s v slot idle job due failed
    refine ⟨fun h after => exec_mark_retires h ?_ slot idle job after,
      fun h after => exec_erase_retires h slot idle job after,
      fun count h after => exec_mark_retires h ?_ slot idle job after,
      fun h victim copying copy done unpinned after => ⟨fun suspect => ?_, fun inside => ?_⟩⟩
    · rw [exec_eraseMarkDone h, if_neg Bool.false_ne_true]
    · rw [exec_erasedMarkDone h, if_neg Bool.false_ne_true]
    · exact exec_reclaimMark_retires h victim copying copy done unpinned slot idle job after true suspect
    · exact exec_reclaimMark_retires h victim copying copy done unpinned slot idle job after false
        (by change (segAt (s.log.segs.modify v _) v).suspect = true
            rw [segAt_modify, if_pos ⟨rfl, inside⟩])
  · intro s v h room quiet ready free copies low u
    refine ⟨fun idle job unclaimed_ need => ?_, fun j q waits job request unbroken payload => ?_⟩
    · exact exec_eraseMark_enters_idle h room quiet ready free copies low idle job unclaimed_ need
    · exact exec_eraseMark_enters_waiting h room quiet ready free copies low waits job request unbroken payload
  · intro s v count j q run waits job request unbroken assembly other unclaimed_ copies free ready tidy plain
      segs t settles
    exact WaitsAtErased.reexamined
      ⟨run, waits, job, request, other, unclaimed_, free, ready, tidy, plain⟩ (t := t) rfl assembly unbroken

end Sys2Proof.Machine
end

section
/-!
PROOFS. The end of mount: what it rebuilt installed, the MOUNTED notice, and the pass of a segment found
RECLAIMING (R90, R125, R126, R137): O60.
-/

namespace Sys2Proof.Machine

open Sys2Proof

/-! ## What the end of mount installs -/

/-- The state mount ends in, before the reclaim unit resumes: the rebuilt blocks, and MOUNTED in the reply
queue. -/
def mountEnded (m : Mount) (device : DeviceState) (cause : RoCause) (s : State) : State :=
  replied
    (Notice.mounted device cause s.resetKind (liveTotal m.dir) (buriedTotal m.dir)
      (m.segs.filter fun e => e.state = .erased).length
      (m.segs.filter fun e => e.state = .retired).length m.discarded m.erasedBy m.retiredBy
      m.leftOut).out
    { s with
      mount := none
      dir := m.dir
      prot := { s.prot with
        settings := m.settings, gateOpen := decide (policyOf m.settings ≠ .passphrase) }
      log := { s.log with device := device, segs := m.segs, sn := m.sn, stamp := m.stamp } }

/-- The cause of a READ_ONLY entry at the end of mount decides the device state (R125). -/
theorem raise_mounted {s : State} {m : Mount} {device : DeviceState} {cause : RoCause}
    (is : mountCause m.segs m.sn m.stamp = cause)
    (device_ : (if cause = .noCause then DeviceState.ready else .readOnly) = device) (slot : SlotOpen s) :
    raise (mountedNotice m s.resetKind) (install m s) = mountEnded m device cause s := by
  rw [raise_open _ (by exact ⟨slot.slot, slot.quiet⟩), mountedNotice, install, is, device_]
  rfl

theorem exec_mountEnd {s : State} {m : Mount} {device : DeviceState} {cause : RoCause}
    (powered : s.powered = true) (rst : s.rst = false) (mount : s.mount = some m)
    (finished : m.phase = .finished) (is : mountCause m.segs m.sn m.stamp = cause)
    (device_ : (if cause = .noCause then DeviceState.ready else .readOnly) = device) (slot : SlotOpen s) :
    exec .mountEnd s = .next (resumeReclaim (mountEnded m device cause s)) := by
  have runs : running s = true := by rw [running, powered, rst]; rfl
  have next : exec .mountEnd s = .next (mountEndEffect s) := congrArg _ (if_pos runs)
  rw [next, mountEndEffect, mount]
  dsimp only
  rw [if_pos finished, raise_mounted is device_ slot]

theorem mountCause_none {segs : List SegEntry} {sn stamp : Nat} (enough : 4 ≤ inUse segs)
    (sns : sn ≠ 4294967295) (head : headOf segs ≠ none) : mountCause segs sn stamp = .noCause := by
  unfold mountCause
  rw [if_neg (by exact Nat.not_lt.2 enough), if_neg (by exact sns), if_neg head]

theorem mountCause_sn {segs : List SegEntry} {sn stamp : Nat} (enough : 4 ≤ inUse segs)
    (spent : sn = 4294967295) : mountCause segs sn stamp = .snExhaustion := by
  unfold mountCause
  rw [if_neg (by exact Nat.not_lt.2 enough), if_pos (by exact spent)]

/-! ## The reclaim unit at the end of mount -/

theorem reclaimingSeg_none {segs : List SegEntry} (none_ : ∀ e ∈ segs, e.state ≠ .reclaiming) :
    reclaimingSeg segs = none :=
  List.findIdx?_eq_none_iff.2 fun e mem => decide_eq_false (none_ e mem)

/-- With no segment RECLAIMING and nothing due the unit stays as it is. -/
theorem resumeReclaim_idle {s : State} (none_ : reclaimingSeg s.log.segs = none)
    (due : NothingDue s s.dir) : resumeReclaim s = s := by
  unfold resumeReclaim
  rw [none_]
  exact backgroundEvent_nothingDue due

/-- The pass of a RECLAIMING segment goes on where the device is READY or no record there is needed. -/
theorem resumeReclaim_walks {s : State} {v : Nat} (found : reclaimingSeg s.log.segs = some v)
    (goes : s.log.device = .ready ∨
      lowestNamed v 64 { s with reclaim := s.reclaim.onVictim v } = none) :
    resumeReclaim s = walkStep { s with reclaim := s.reclaim.onVictim v } := by
  unfold resumeReclaim
  rw [found]
  refine if_neg fun ⟨device, needed⟩ => ?_
  rcases goes with ready | done
  · exact device ready
  · change (lowestNamed v 64 _).isSome = true at needed
    rw [done] at needed
    cases needed

/-- In READ_ONLY the pass stops at its first needed record. -/
theorem resumeReclaim_stops {s : State} {v : Nat} {c : Copy} (found : reclaimingSeg s.log.segs = some v)
    (device : s.log.device ≠ .ready)
    (needed : lowestNamed v 64 { s with reclaim := s.reclaim.onVictim v } = some c) :
    resumeReclaim s = stopPass { s with reclaim := s.reclaim.onVictim v } := by
  unfold resumeReclaim
  rw [found]
  exact if_pos ⟨device, by
    change (lowestNamed v 64 _).isSome = true
    rw [needed]
    rfl⟩

/-! ## The two ends of mount -/

theorem mountEnd_nothingReclaiming {s : State} {m : Mount} (powered : s.powered = true)
    (rst : s.rst = false) (mount : s.mount = some m) (finished : m.phase = .finished) (slot : SlotOpen s)
    (none_ : ∀ e ∈ m.segs, e.state ≠ .reclaiming)
    (due : NothingDue (mountEnded m .ready .noCause s) m.dir) :
    (headOf m.segs ≠ none → m.sn ≠ 4294967295 →
      exec .mountEnd s = .next (mountEnded m .ready .noCause s)) ∧
      (m.sn = 4294967295 → exec .mountEnd s = .next (mountEnded m .readOnly .snExhaustion s)) := by
  have enough : 4 ≤ inUse m.segs := Nat.le_trans due.erased (erasedCount_le_inUse m.segs)
  refine ⟨fun head sns => ?_, fun spent => ?_⟩
  · rw [exec_mountEnd (device := .ready) powered rst mount finished (mountCause_none enough sns head) rfl
      slot,
      resumeReclaim_idle (by exact reclaimingSeg_none none_) (by exact due)]
  · rw [exec_mountEnd (device := .readOnly) powered rst mount finished (mountCause_sn enough spent) rfl slot,
      resumeReclaim_idle (by exact reclaimingSeg_none none_)
        (by exact ⟨due.engine, due.copy, due.foreground, due.background, due.tidy, due.erased, due.buried⟩)]

/-- While MOUNTING both queues of replies and notices are empty. -/
theorem MountingInv.slotOpen {s : State} (inv : MountingInv s) : SlotOpen s :=
  ⟨by rw [inv.replies]; decide, inv.notices⟩

/-- The state mount ends in with the reclaim unit and the array controller as they go on. -/
def mountGoesOn (m : Mount) (device : DeviceState) (cause : RoCause) (reclaim : Reclaim)
    (op : Option ArrayOp) (s : State) : State :=
  { mountEnded m device cause s with reclaim := reclaim, ctrl := { s.ctrl with cur := op } }

/-- The unit after reset, over the victim of a pass (R67). -/
theorem MountingInv.onVictim {s : State} (inv : MountingInv s) (v : Nat) :
    s.reclaim.onVictim v = { s.reclaim with state := .copying, victim := some v } := by
  rw [inv.reclaim]
  rfl

theorem MountingInv.position {s : State} (inv : MountingInv s) : s.reclaim.position = 64 := by
  rw [inv.reclaim]
  rfl

/-- The unit takes its pass up again on the controller at rest. -/
theorem mountEnded_onVictim {s : State} (inv : MountingInv s) (idle : s.ctrl.cur = none) (m : Mount)
    (device : DeviceState) (cause : RoCause) (v : Nat) :
    ({ mountEnded m device cause s with
      reclaim := (mountEnded m device cause s).reclaim.onVictim v } : State) =
      mountGoesOn m device cause { s.reclaim with state := .copying, victim := some v } none s := by
  have reclaim : (mountEnded m device cause s).reclaim.onVictim v = _ := inv.onVictim v
  rw [reclaim]
  unfold mountGoesOn
  rw [← idle]
  rfl

theorem mountGoesOn_reads {s : State} (inv : MountingInv s) (m : Mount) (device : DeviceState)
    (cause : RoCause) {v : Nat} {c : Copy}
    (needed : lowestNamed v 64 (mountGoesOn m device cause
      { s.reclaim with state := .copying, victim := some v } none s) = some c) :
    walkStep (mountGoesOn m device cause { s.reclaim with state := .copying, victim := some v } none s) =
      mountGoesOn m device cause { s.reclaim with
        state := .copying, victim := some v, copy := some c, position := c.loc.off + c.size }
        (some (.copyRead c.loc)) s := by
  rw [walkStep_reads (v := v) (c := c) (by rfl) (by rfl) (by exact inv.queue) (by exact inv.unpaused)
    (by rw [show (mountGoesOn m device cause { s.reclaim with state := .copying, victim := some v } none
          s).reclaim.position = 64 from inv.position]; exact needed)]
  rfl

theorem mountGoesOn_erases {s : State} (inv : MountingInv s) (m : Mount) (device : DeviceState)
    (cause : RoCause) {v : Nat} (unpinned : (segAt m.segs v).pin = false)
    (sound : (segAt m.segs v).suspect = false)
    (done : lowestNamed v 64 (mountGoesOn m device cause
      { s.reclaim with state := .copying, victim := some v } none s) = none) :
    walkStep (mountGoesOn m device cause { s.reclaim with state := .copying, victim := some v } none s) =
      mountGoesOn m device cause { s.reclaim with state := .erasing, victim := some v }
        (some (.eraseMark v)) s := by
  have copy : s.reclaim.copy = none := by rw [inv.reclaim]; rfl
  rw [walkStep_erases (v := v) (by rfl) (by rfl) (by exact inv.queue) (by exact inv.unpaused)
    (by exact unpinned) (by exact sound)
    (by rw [show (mountGoesOn m device cause { s.reclaim with state := .copying, victim := some v } none
          s).reclaim.position = 64 from inv.position]; exact done)]
  unfold mountGoesOn
  rw [← copy]

theorem mountGoesOn_stops {s : State} (inv : MountingInv s) (m : Mount) (device : DeviceState)
    (cause : RoCause) (v : Nat) :
    stopPass (mountGoesOn m device cause { s.reclaim with state := .copying, victim := some v } none s) =
      mountGoesOn m device cause s.reclaim none s := by
  rw [stopPass_idle (by
    change s.engine.state = .idle
    rw [inv.engine]
    rfl)]
  unfold passStopped mountGoesOn mountEnded
  dsimp only [replied]
  rw [inv.reclaim, inv.log]
  rfl

/-- Settles O60: the cause of R125 decides the device state, and the reclaim unit resumes from the rebuilt
table. -/
theorem mountEndRaisesMounted : Obligations.MountEndRaisesMounted := by
  refine ⟨fun s m powered rst mount finished slot none_ due =>
    mountEnd_nothingReclaiming powered rst mount finished slot none_ due, ?_⟩
  intro s m v powered rst mount finished inv idle found enough unpinned sound ended resumed erasing needed
  refine ⟨fun sns head => ?_, fun spent => ?_⟩
  · rw [exec_mountEnd (device := .ready) powered rst mount finished (mountCause_none enough sns head) rfl
      inv.slotOpen, resumeReclaim_walks (by exact found) (.inl (by rfl)), mountEnded_onVictim inv idle]
    exact ⟨fun c lowest => congrArg _ (mountGoesOn_reads inv m .ready .noCause lowest),
      fun done => congrArg _ (mountGoesOn_erases inv m .ready .noCause unpinned sound done)⟩
  · rw [exec_mountEnd (device := .readOnly) powered rst mount finished (mountCause_sn enough spent) rfl
      inv.slotOpen]
    refine ⟨fun c lowest => ?_, fun done => ?_⟩
    · rw [resumeReclaim_stops (v := v) (c := c) (by exact found) (by exact nofun)
        (by rw [mountEnded_onVictim inv idle]; exact lowest), mountEnded_onVictim inv idle,
        mountGoesOn_stops inv]
      rfl
    · rw [resumeReclaim_walks (by exact found) (.inr (by rw [mountEnded_onVictim inv idle]; exact done)),
        mountEnded_onVictim inv idle]
      exact congrArg _ (mountGoesOn_erases inv m .readOnly .snExhaustion unpinned sound done)

end Sys2Proof.Machine
end

section
/-!
PROOFS. What mount keeps of its reads: descriptors, the records its walks meet, and the greatest SN its scans
find (R110 to R114, R127): O57.
-/

namespace Sys2Proof.Machine

open Sys2Proof

/-! ## The greatest of some numbers -/

theorem greatest_cons (n : Nat) (numbers : List Nat) :
    greatest (n :: numbers) = max n (greatest numbers) := by
  unfold greatest
  rw [List.foldl_cons, Nat.max_comm 0 n, List.foldl_assoc]

theorem le_greatest {n : Nat} {numbers : List Nat} (mem : n ∈ numbers) : n ≤ greatest numbers := by
  induction numbers with
  | nil => cases mem
  | cons x rest ih =>
    rw [greatest_cons]
    rcases List.mem_cons.1 mem with rfl | mem
    · exact Nat.le_max_left _ _
    · exact Nat.le_trans (ih mem) (Nat.le_max_right _ _)

theorem greatest_mem (numbers : List Nat) : greatest numbers = 0 ∨ greatest numbers ∈ numbers := by
  induction numbers with
  | nil => exact .inl rfl
  | cons x rest ih =>
    rw [greatest_cons]
    rcases Nat.le_total (greatest rest) x with le | le
    · exact .inr (by rw [Nat.max_eq_left le]; exact List.mem_cons_self)
    · rw [Nat.max_eq_right le]
      exact ih.imp id (List.mem_cons_of_mem x)

/-! ## A completed read -/

theorem exec_mountReadDone {s : State} (h : Running s .mountRead) (bad : List Nat) :
    exec (.mountReadDone bad) s = .next (mountReadDoneEffect bad s) :=
  congrArg _ (if_pos h.runs)

/-- Mount's next read on the controller that still names its last one. -/
theorem mountAsk_read {s : State} (h : Running s .mountRead) (m : Mount) :
    mountAsk m (some .mountRead) s = { s with mount := some m } := by
  unfold mountAsk
  rw [← h.cur]

theorem exec_descriptorRead {s : State} {m : Mount} {seg : Nat} (h : Running s .mountRead)
    (mount : s.mount = some m) (phase : m.phase = .descriptor seg) (bad : List Nat) :
    exec (.mountReadDone bad) s = .next (descriptorRead m seg bad s) := by
  rw [exec_mountReadDone h, mountReadDoneEffect, h.cur, mount]
  dsimp only
  rw [phase]

theorem exec_walkRead {s : State} {m : Mount} {seg off : Nat} {rest : List Nat} (h : Running s .mountRead)
    (mount : s.mount = some m) (phase : m.phase = .walk (seg :: rest) off) (bad : List Nat) :
    exec (.mountReadDone bad) s = .next (walkRead m seg rest off bad s) := by
  rw [exec_mountReadDone h, mountReadDoneEffect, h.cur, mount]
  dsimp only
  rw [phase]

theorem exec_scanRead {s : State} {m : Mount} {region : Loc} {rest : List Loc} (h : Running s .mountRead)
    (mount : s.mount = some m) (phase : m.phase = .scan (region :: rest)) (bad : List Nat) :
    exec (.mountReadDone bad) s = .next (scanRead m region rest bad s) := by
  rw [exec_mountReadDone h, mountReadDoneEffect, h.cur, mount]
  dsimp only
  rw [phase]

/-! ## Descriptors (R110, R111) -/

/-- With no place failing its check a descriptor reads as it stands. -/
theorem Marks.asRead_passes (m : Marks) : m.asRead [] = m := rfl

theorem classify_retired {m : Marks} (retired : m.retired = .valid 0) : classify m = .retired := by
  rw [classify, retired]
  rfl

theorem classify_erase {m : Marks} (retired : m.retired = .blank) (erase : m.erase ≠ .blank) :
    classify m = .unknown := by
  rw [classify, retired]
  exact if_pos erase

/-! ## Walks (R112, R113) -/

/-- What the walk meets where a slot starts, by what the slot holds. -/
theorem walkView_slot {a : ArraySeg} {off : Nat} {t : Slot} (below : off < 16384)
    (found : a.slots.find? (fun t => t.off = off) = some t) (bad : List Nat) :
    (∀ r, t.record = some r → walkView a off bad =
      if r.headerPasses off && !bad.contains off then .finds r else .stops .torn) ∧
      (t.record = none → walkView a off bad = .stops .torn) := by
  have written : ¬ (a.slots.all fun t => decide (t.off < off)) = true := fun all => by
    have lt := of_decide_eq_true (List.all_eq_true.1 all t (List.mem_of_find?_eq_some found))
    have at_ := List.find?_some (p := fun t : Slot => decide (t.off = off)) found
    have at_ := of_decide_eq_true at_
    omega
  unfold walkView
  rw [if_neg (by exact Nat.not_le.2 below), if_neg written, found]
  dsimp only
  refine ⟨fun r record => ?_, fun record => ?_⟩
  · rw [record]
  · rw [record]

theorem walkView_erased {a : ArraySeg} {off : Nat} (below : off < 16384) (erased : ∀ t ∈ a.slots, t.off < off)
    (bad : List Nat) : walkView a off bad = .stops .erasedSpace := by
  unfold walkView
  rw [if_neg (by exact Nat.not_le.2 below),
    if_pos (List.all_eq_true.2 fun t mem => decide_eq_true (erased t mem))]

theorem Record.headerPasses_iff {off : Nat} {r : Record} :
    r.headerPasses off = true ↔ r.key.length ≤ 32 ∧ r.value.length ≤ 4096 ∧ off + r.size ≤ 16384 :=
  decide_eq_true_iff

/-- A walk that meets a record goes on behind it. -/
theorem walkRead_finds {s : State} {m : Mount} {seg off : Nat} {rest : List Nat} {r : Record}
    {bad : List Nat} (h : Running s .mountRead) (view : walkView (arraySeg s seg) off bad = .finds r) :
    walkRead m seg rest off bad s = { s with
      mount := some { m with
        phase := .walk (seg :: rest) (off + r.size)
        found := m.found ++ [{ loc := { seg := seg, off := off }, record := r }] } } := by
  rw [walkRead, view]
  exact mountAsk_read h _

/-- A walk that ends is followed by the walk of the next segment. -/
theorem walkRead_stops {s : State} {m : Mount} {seg next off : Nat} {more : List Nat} {stop : WalkStop}
    {bad : List Nat} (h : Running s .mountRead) (view : walkView (arraySeg s seg) off bad = .stops stop) :
    walkRead m seg (next :: more) off bad s = { s with
      mount := some { m with
        phase := .walk (next :: more) 64
        ends := m.ends ++ [{ seg := seg, off := off, stop := stop }]
        discarded := if stop = .torn then m.discarded + 1 else m.discarded } } := by
  rw [walkRead, view]
  exact mountAsk_read h _

/-! ## Scans (R114) -/

theorem imageSns_straySn : ImageSns straySn where
  below slots start bad := by
    unfold straySn
    split
    · exact (Config.strayImageSn slots start bad).isLt
    · decide
  erased start bad := rfl
  torn t start bad torn := if_neg (by rw [mayHoldStray, torn]; exact Bool.false_ne_true)

theorem Slot.scanned_eq_some {t : Slot} {start sn : Nat} {bad : List Nat} :
    t.scanned start bad = some sn ↔ start ≤ t.off ∧ ∃ r, (t.record = some r ∧ t.off ∉ bad ∧
      r.key.length ≤ 32 ∧ r.value.length ≤ 4096 ∧ t.off + r.size ≤ 16384) ∧ r.sn = sn := by
  unfold Slot.scanned
  cases t.record with
  | none => simp
  | some r =>
    dsimp only
    have readable : bad.contains t.off = false ↔ t.off ∉ bad := by simp
    constructor
    · intro eq
      split at eq
      · rename_i passes
        obtain ⟨from_, header, read⟩ := passes
        exact ⟨from_, r, ⟨rfl, readable.1 read, Record.headerPasses_iff.1 header⟩, Option.some.inj eq⟩
      · cases eq
    · rintro ⟨from_, _, ⟨⟨⟩, read, header⟩, rfl⟩
      exact if_pos ⟨from_, Record.headerPasses_iff.2 header, readable.2 read⟩

/-- A scan leaves the greatest of what was found before, of the records that pass, and of the images. -/
theorem scanLeaves_max (s : State) (region : Loc) (bad : List Nat) (before : Nat) :
    ScanLeaves straySn s region bad before (max before (max
      (scanRegion (arraySeg s region.seg) region.off bad)
      (straySn (regionSlots (arraySeg s region.seg) region.off) region.off bad))) := by
  unfold ScanLeaves
  intro slots image passes
  let sn := scanRegion (arraySeg s region.seg) region.off bad
  let after := max before (max sn image)
  change before ≤ after ∧ image ≤ after ∧ (∀ t ∈ slots, ∀ r, passes t r → r.sn ≤ after) ∧
    (after = before ∨ after = image ∨ ∃ t ∈ slots, ∃ r, passes t r ∧ r.sn = after)
  have found : ∀ t ∈ slots, ∀ r, passes t r → r.sn ≤ sn := fun t mem r pass => by
    obtain ⟨mem, from_⟩ := List.mem_filter.1 mem
    exact le_greatest (List.mem_filterMap.2 ⟨t, mem,
      Slot.scanned_eq_some.2 ⟨of_decide_eq_true from_, r, pass, rfl⟩⟩)
  have is : sn = 0 ∨ ∃ t ∈ slots, ∃ r, passes t r ∧ r.sn = sn := by
    refine (greatest_mem _).imp id fun mem => ?_
    obtain ⟨t, mem, scanned⟩ := List.mem_filterMap.1 mem
    obtain ⟨from_, r, pass, is⟩ := Slot.scanned_eq_some.1 scanned
    exact ⟨t, List.mem_filter.2 ⟨mem, decide_eq_true from_⟩, r, pass, is⟩
  refine ⟨by omega, by omega, fun t mem r pass => by have := found t mem r pass; omega, ?_⟩
  by_cases first : max sn image ≤ before
  · exact .inl (Nat.max_eq_left first)
  · have last : after = max sn image := Nat.max_eq_right (Nat.le_of_not_le first)
    rw [last]
    by_cases second : sn ≤ image
    · exact .inr (.inl (Nat.max_eq_right second))
    · rw [Nat.max_eq_left (Nat.le_of_not_le second)]
      refine .inr (.inr (is.resolve_left fun zero => ?_))
      omega

/-- Settles O57: each read of mount, by what the walk or the scan meets in the array. -/
theorem mountReadsDescriptorsAndRecords : Obligations.MountReadsDescriptorsAndRecords := by
  refine ⟨?_, ?_, straySn, imageSns_straySn, ?_⟩
  · intro s m seg h mount phase more marks
    refine ⟨?_, classify_retired, classify_erase, ?_, ?_, ?_⟩
    · rw [exec_descriptorRead h mount phase, descriptorRead]
      dsimp only
      rw [if_pos (by exact more), mountAsk_read h]
      rfl
    · rintro count is
      rw [is]
      rfl
    · rintro count stamp is
      rw [is]
      rfl
    · rintro count stamp is
      rw [is]
      rfl
  · intro s m seg next more off h mount phase below slots ended
    have stops {bad : List Nat} {stop : WalkStop} (view : walkView (arraySeg s seg) off bad = .stops stop) :
        exec (.mountReadDone bad) s = .next _ :=
      (exec_walkRead h mount phase bad).trans (congrArg _ (walkRead_stops h view))
    refine ⟨fun size r found key value within => ⟨?_, ?_⟩, fun size r found fails => ?_,
      fun size found => ?_, fun erased => ?_⟩
    · have view := (walkView_slot (a := arraySeg s seg) below found []).1 r rfl
      rw [Record.headerPasses_iff.2 ⟨key, value, within⟩] at view
      rw [exec_walkRead h mount phase, walkRead_finds h view]
    · have view := (walkView_slot (a := arraySeg s seg) below found [off]).1 r rfl
      rw [List.contains_eq_mem, decide_eq_true (List.mem_singleton.2 rfl), Bool.not_true,
        Bool.and_false] at view
      exact stops view
    · have view := (walkView_slot (a := arraySeg s seg) below found []).1 r rfl
      rw [if_neg fun passes => by
        obtain ⟨key, value, within⟩ := Record.headerPasses_iff.1 ((Bool.and_eq_true _ _ ▸ passes).1)
        omega] at view
      exact stops view
    · exact stops ((walkView_slot (a := arraySeg s seg) below found []).2 rfl)
    · exact stops (walkView_erased (a := arraySeg s seg) below erased [])
  · intro s m region next more bad h mount phase
    refine ⟨_, scanLeaves_max s region bad m.scanSn, ?_⟩
    rw [exec_scanRead h mount phase, scanRead]
    exact congrArg _ (mountAsk_read h _)

end Sys2Proof.Machine
end

section
/-!
PROOFS. What mount rebuilds from the records it keeps: the newest record of each name, and the order of
admission to the directory (R116 to R118).
-/

namespace Sys2Proof.Machine

open Sys2Proof

/-! ## Lists kept in an order by insertion -/

/-- Insertion before the first greater element keeps a list in order: no element stands before a smaller. -/
theorem pairwise_orderedInsert {α : Type} {r : α → α → Prop} [DecidableRel r] (asymm : ∀ a b, r a b → ¬ r b a)
    (trans : ∀ a b c, ¬ r c b → ¬ r b a → ¬ r c a) {l : List α} (h : l.Pairwise fun a b => ¬ r b a) (a : α) :
    (l.orderedInsert r a).Pairwise fun a b => ¬ r b a := by
  induction l with
  | nil => exact List.pairwise_singleton _ _
  | cons b rest ih =>
    rw [List.orderedInsert_cons]
    have after := List.pairwise_cons.1 h
    split
    · rename_i before
      refine List.pairwise_cons.2 ⟨fun c mem => ?_, h⟩
      have first : ¬ r b a := asymm a b before
      rcases List.mem_cons.1 mem with rfl | mem
      · exact first
      · exact trans a b c (after.1 c mem) first
    · rename_i notBefore
      refine List.pairwise_cons.2 ⟨fun c mem => ?_, ih after.2⟩
      rcases List.mem_cons.1 ((List.perm_orderedInsert r a rest).mem_iff.1 mem) with rfl | mem
      · exact notBefore
      · exact after.1 c mem

/-- The elements of a list, inserted one after the other, in order. -/
theorem foldl_orderedInsert {α : Type} {r : α → α → Prop} [DecidableRel r] (asymm : ∀ a b, r a b → ¬ r b a)
    (trans : ∀ a b c, ¬ r c b → ¬ r b a → ¬ r c a) (l : List α) {sorted : List α}
    (h : sorted.Pairwise fun a b => ¬ r b a) :
    (l.foldl (fun sorted a => sorted.orderedInsert r a) sorted).Pairwise (fun a b => ¬ r b a) ∧
      (l.foldl (fun sorted a => sorted.orderedInsert r a) sorted).Perm (l ++ sorted) := by
  induction l generalizing sorted with
  | nil => exact ⟨h, .refl _⟩
  | cons a rest ih =>
    obtain ⟨ordered, perm⟩ := ih (pairwise_orderedInsert asymm trans h a)
    exact ⟨ordered, perm.trans
      ((List.Perm.append_left rest (List.perm_orderedInsert r a sorted)).trans List.perm_middle)⟩

/-! ## The newest record of a name (R117) -/

/-- Of two records the first is no newer: by SN, then open stamp, then offset (R117). -/
def NotNewer (reads : List SegRead) (f g : Found) : Prop :=
  f.record.sn < g.record.sn ∨
    (f.record.sn = g.record.sn ∧ stampAt reads f.loc.seg < stampAt reads g.loc.seg) ∨
    (f.record.sn = g.record.sn ∧ stampAt reads f.loc.seg = stampAt reads g.loc.seg ∧ f.loc.off ≤ g.loc.off)

theorem newer_eq_false {reads : List SegRead} {f g : Found} :
    newer reads f g = false ↔ NotNewer reads f g := by
  unfold newer NotNewer
  split_ifs <;> rw [decide_eq_false_iff_not] <;> omega

theorem NotNewer.refl (reads : List SegRead) (f : Found) : NotNewer reads f f :=
  .inr (.inr ⟨rfl, rfl, Nat.le_refl _⟩)

theorem NotNewer.trans {reads : List SegRead} {f g h : Found} (first : NotNewer reads f g)
    (second : NotNewer reads g h) : NotNewer reads f h := by
  unfold NotNewer at *
  omega

theorem NotNewer.of_newer {reads : List SegRead} {f g : Found} (h : newer reads f g = true) :
    NotNewer reads g f := by
  unfold newer at h
  unfold NotNewer
  split_ifs at h <;> have := of_decide_eq_true h <;> omega

/-- Two records have one name. -/
def SameName (f g : Found) : Prop := f.record.ns = g.record.ns ∧ f.record.key = g.record.key

theorem SameName.trans {f g h : Found} (first : SameName f g) (second : SameName g h) : SameName f h :=
  ⟨first.1.trans second.1, first.2.trans second.2⟩

theorem SameName.symm {f g : Found} (h : SameName f g) : SameName g f := ⟨h.1.symm, h.2.symm⟩

/-- The record of a name in this list is no older than this one. -/
def Covers (reads : List SegRead) (names : List Found) (f : Found) : Prop :=
  ∃ g ∈ names, SameName g f ∧ NotNewer reads f g

theorem mem_addNewest {reads : List SegRead} {f g : Found} {names : List Found}
    (mem : g ∈ addNewest reads f names) : g = f ∨ g ∈ names := by
  induction names with
  | nil => exact .inl (List.mem_singleton.1 mem)
  | cons x rest ih =>
    unfold addNewest at mem
    split at mem
    · rcases List.mem_cons.1 mem with is | mem
      · split at is
        · exact .inl is
        · exact .inr (is ▸ List.mem_cons_self)
      · exact .inr (List.mem_cons_of_mem _ mem)
    · rcases List.mem_cons.1 mem with rfl | mem
      · exact .inr List.mem_cons_self
      · exact (ih mem).imp id (List.mem_cons_of_mem _)

/-- The record added is covered, and so is what was covered. -/
theorem covers_addNewest (reads : List SegRead) (f : Found) (names : List Found) :
    Covers reads (addNewest reads f names) f ∧
      ∀ h, Covers reads names h → Covers reads (addNewest reads f names) h := by
  induction names with
  | nil => exact ⟨⟨f, List.mem_cons_self, ⟨rfl, rfl⟩, .refl _ _⟩, fun h ⟨g, mem, _⟩ => nomatch mem⟩
  | cons x rest ih =>
    unfold addNewest
    split
    · rename_i same
      let best := if newer reads f x then f else x
      have spec : SameName best f ∧ NotNewer reads f best ∧ NotNewer reads x best := by
        cases first : newer reads f x with
        | true =>
          rw [show best = f from if_pos first]
          exact ⟨⟨rfl, rfl⟩, .refl _ _, .of_newer first⟩
        | false =>
          rw [show best = x from if_neg (by rw [first]; exact Bool.false_ne_true)]
          exact ⟨same, newer_eq_false.1 first, .refl _ _⟩
      obtain ⟨name, newest, kept⟩ := spec
      refine ⟨⟨best, List.mem_cons_self, name, newest⟩, fun h ⟨g, mem, named, notNewer⟩ => ?_⟩
      rcases List.mem_cons.1 mem with rfl | mem
      · exact ⟨best, List.mem_cons_self, name.trans (SameName.trans (SameName.symm same) named),
          notNewer.trans kept⟩
      · exact ⟨g, List.mem_cons_of_mem _ mem, named, notNewer⟩
    · obtain ⟨⟨g, mem, spec⟩, others⟩ := ih
      refine ⟨⟨g, List.mem_cons_of_mem _ mem, spec⟩, fun h ⟨g, mem, spec⟩ => ?_⟩
      rcases List.mem_cons.1 mem with rfl | mem
      · exact ⟨g, List.mem_cons_self, spec⟩
      · obtain ⟨k, mem, spec⟩ := others h ⟨g, mem, spec⟩
        exact ⟨k, List.mem_cons_of_mem _ mem, spec⟩

/-- No two records of one name stand in the list. -/
def OneOfEachName (names : List Found) : Prop := names.Pairwise fun f g => ¬ SameName f g

theorem oneOfEachName_addNewest {names : List Found} (h : OneOfEachName names) (reads : List SegRead)
    (f : Found) : OneOfEachName (addNewest reads f names) := by
  induction names with
  | nil => exact List.pairwise_singleton _ _
  | cons x rest ih =>
    obtain ⟨first, others⟩ := List.pairwise_cons.1 h
    unfold addNewest
    split
    · rename_i same
      refine List.pairwise_cons.2 ⟨fun g mem named => first g mem ?_, others⟩
      split at named
      · exact SameName.trans same named
      · exact named
    · rename_i differ
      refine List.pairwise_cons.2 ⟨fun g mem => ?_, ih others⟩
      rcases mem_addNewest mem with rfl | mem
      · exact differ
      · exact first g mem

/-- The records of the names in a list, added one after the other. -/
theorem foldl_addNewest (reads : List SegRead) (l : List Found) {names : List Found}
    (one : OneOfEachName names) :
    let all := l.foldl (fun names f => addNewest reads f names) names
    OneOfEachName all ∧ (∀ g ∈ all, g ∈ l ∨ g ∈ names) ∧ (∀ f ∈ l, Covers reads all f) ∧
      ∀ f, Covers reads names f → Covers reads all f := by
  induction l generalizing names with
  | nil => exact ⟨one, fun _ => .inr, nofun, fun _ => id⟩
  | cons x rest ih =>
    obtain ⟨one, mem, covers, kept⟩ := ih (oneOfEachName_addNewest one reads x)
    obtain ⟨new, old⟩ := covers_addNewest reads x names
    refine ⟨one, fun g h => ?_, fun f h => ?_, fun f h => kept f (old f h)⟩
    · rcases mem g h with h | h
      · exact .inl (List.mem_cons_of_mem _ h)
      · exact (mem_addNewest h).imp (fun is => by rw [is]; exact List.mem_cons_self) id
    · rcases List.mem_cons.1 h with rfl | h
      · exact kept f new
      · exact covers f h

theorem nameRecords_spec (reads : List SegRead) (found : List Found) :
    OneOfEachName (nameRecords reads found) ∧
      (∀ g ∈ nameRecords reads found, g ∈ found ∧ stands found g.record = true) ∧
      ∀ f ∈ found, stands found f.record = true → Covers reads (nameRecords reads found) f := by
  obtain ⟨one, mem, covers, -⟩ :=
    foldl_addNewest reads (found.filter fun f => stands found f.record) (names := []) List.Pairwise.nil
  refine ⟨one, fun g h => ?_, fun f h up => covers f (List.mem_filter.2 ⟨h, up⟩)⟩
  exact List.mem_filter.1 ((mem g h).resolve_right (List.not_mem_nil))

/-! ## Admission to the directory (R118) -/

/-- An entry is admitted no earlier than another: not before it where the other is BURIED, nor where both are
alike and the other no older. -/
theorem not_admittedBefore_iff {a b : Entry} : ¬ admittedBefore b a = true ↔
    (b.isLive = true → a.isLive = true) ∧ (b.isLive = a.isLive → b.version ≤ a.version) := by
  unfold admittedBefore
  cases b.isLive <;> cases a.isLive <;> simp

theorem admittedBefore_asymm (a b : Entry) (h : admittedBefore a b = true) : ¬ admittedBefore b a = true := by
  rw [not_admittedBefore_iff]
  unfold admittedBefore at h
  split at h
  · rename_i same
    have := of_decide_eq_true h
    exact ⟨fun live => same.trans live, fun _ => by omega⟩
  · rename_i differ
    exact ⟨fun _ => h, fun same => absurd same.symm differ⟩

theorem admittedBefore_trans (a b c : Entry) (cb : ¬ admittedBefore c b = true)
    (ba : ¬ admittedBefore b a = true) : ¬ admittedBefore c a = true := by
  rw [not_admittedBefore_iff] at *
  refine ⟨fun live => ba.1 (cb.1 live), fun same => ?_⟩
  have between : c.isLive = b.isLive :=
    Bool.eq_iff_iff.2 ⟨cb.1, fun live => same.trans (ba.1 live)⟩
  exact Nat.le_trans (cb.2 between) (ba.2 (between.symm.trans same))

theorem insertEntry_eq (e : Entry) (sorted : List Entry) :
    insertEntry e sorted = sorted.orderedInsert (fun a b => admittedBefore a b = true) e := by
  induction sorted with
  | nil => rfl
  | cons x rest ih => rw [insertEntry, List.orderedInsert_cons, ih]

theorem admission_spec (entries : List Entry) :
    ((admission entries).Pairwise fun a b => ¬ admittedBefore b a = true) ∧
      (admission entries).Perm entries := by
  have insert : (fun sorted e => insertEntry e sorted) =
      fun (sorted : List Entry) e => sorted.orderedInsert (fun a b => admittedBefore a b = true) e :=
    funext fun _ => funext fun _ => insertEntry_eq _ _
  have spec := foldl_orderedInsert admittedBefore_asymm admittedBefore_trans entries
    (sorted := []) List.Pairwise.nil
  rw [← insert, List.append_nil] at spec
  exact spec

/-- Entries of distinct names fill the directory one by one. -/
theorem foldl_dirPut_fresh {l dir : List Entry}
    (apart : l.Pairwise fun a b => ¬ (a.ns = b.ns ∧ a.key = b.key))
    (new : ∀ x ∈ dir, ∀ y ∈ l, ¬ (x.ns = y.ns ∧ x.key = y.key)) :
    (l.foldl dirPut dir).length = dir.length + l.length ∧
      ∀ e, e ∈ l.foldl dirPut dir ↔ e ∈ dir ∨ e ∈ l := by
  induction l generalizing dir with
  | nil => exact ⟨rfl, by simp⟩
  | cons x rest ih =>
    obtain ⟨first, others⟩ := List.pairwise_cons.1 apart
    obtain ⟨length, mem⟩ := dirPut_fresh dir x fun y h => new y h x List.mem_cons_self
    obtain ⟨total, all⟩ := ih (dir := dirPut dir x) others fun y h z mem_ => by
      rcases (mem y).1 h with rfl | h
      · exact first z mem_
      · exact new y h z (List.mem_cons_of_mem _ mem_)
    refine ⟨?_, fun e => ?_⟩
    · rw [List.foldl_cons, total, length, List.length_cons]
      omega
    · rw [List.foldl_cons, all, mem, List.mem_cons]
      tauto

/-- The entries of the names found have distinct names, in the order of admission too. -/
theorem admission_apart {names : List Found} (one : OneOfEachName names) :
    (admission (names.map Found.entry)).Pairwise fun a b => ¬ (a.ns = b.ns ∧ a.key = b.key) := by
  refine ((admission_spec _).2.pairwise_iff fun h k => h ⟨k.1.symm, k.2.symm⟩).2 ?_
  exact List.pairwise_map.2 one

/-- The rebuilt directory has the first 1,024 entries in the order of admission. -/
theorem rebuiltDir_spec {names : List Found} (one : OneOfEachName names) :
    (rebuiltDir (names.map Found.entry)).length = min names.length 1024 ∧
      ∀ e, e ∈ rebuiltDir (names.map Found.entry) ↔ e ∈ (admission (names.map Found.entry)).take 1024 := by
  obtain ⟨length, mem⟩ := foldl_dirPut_fresh (dir := [])
    ((admission_apart one).sublist (List.take_sublist 1024 _)) nofun
  refine ⟨length.trans ?_, fun e => (mem e).trans (by simp)⟩
  rw [List.length_take, (admission_spec _).2.length_eq, List.length_map]
  exact (Nat.zero_add _).trans (Nat.min_comm _ _)

theorem mem_admission {names : List Found} {e : Entry} :
    e ∈ admission (names.map Found.entry) ↔ ∃ g ∈ names, e = g.entry := by
  rw [(admission_spec _).2.mem_iff, List.mem_map]
  exact exists_congr fun g => and_congr_right fun _ => eq_comm

/-- An entry left out is admitted no earlier than any in the directory. -/
theorem rebuiltDir_first {names : List Found} (one : OneOfEachName names) {g : Found} (found : g ∈ names)
    (out : g.entry ∉ rebuiltDir (names.map Found.entry)) {e : Entry}
    (mem : e ∈ rebuiltDir (names.map Found.entry)) : ¬ admittedBefore g.entry e = true := by
  have spec := (rebuiltDir_spec one).2
  have ordered := (admission_spec (names.map Found.entry)).1
  rw [← List.take_append_drop 1024 (admission (names.map Found.entry))] at ordered
  have left : g.entry ∈ (admission (names.map Found.entry)).drop 1024 := by
    have all := mem_admission.2 ⟨g, found, rfl⟩
    rw [← List.take_append_drop 1024 (admission (names.map Found.entry)), List.mem_append] at all
    exact all.resolve_left fun taken => out ((spec _).2 taken)
  exact (List.pairwise_append.1 ordered).2.2 e ((spec e).1 mem) _ left

end Sys2Proof.Machine
end

section
/-!
PROOFS. What mount decides once its last read is made: directory, settings and counters, and what it goes on
with (R111, R114 to R124): O58.
-/

namespace Sys2Proof.Machine

open Sys2Proof

/-! ## The directory (R116 to R118) -/

theorem rebuild_dir_of_few (m : Mount) (few : (nameRecords m.reads m.found).length ≤ 1024) (e : Entry) :
    e ∈ m.rebuild.dir ↔ ∃ g ∈ nameRecords m.reads m.found, e = g.entry := by
  have spec := (rebuiltDir_spec (nameRecords_spec m.reads m.found).1).2 e
  rw [List.take_of_length_le (by rw [(admission_spec _).2.length_eq, List.length_map]; exact few),
    mem_admission] at spec
  exact spec

/-! ## The settings table (R117, R119) -/

/-- The newer of the best record so far and the next one. -/
def pickNewer (reads : List SegRead) (best : Option Found) (f : Found) : Option Found :=
  best.elim (some f) fun b => if newer reads f b then some f else some b

/-- One after the other, each record in place of the best so far where it is newer, leaves the newest. -/
theorem foldl_pickNewer (reads : List SegRead) (l : List Found) (b : Found) :
    ∃ f, l.foldl (pickNewer reads) (some b) = some f ∧ f ∈ b :: l ∧ ∀ g ∈ b :: l, NotNewer reads g f := by
  induction l generalizing b with
  | nil =>
    refine ⟨b, rfl, List.mem_cons_self, fun g mem => ?_⟩
    rw [List.mem_singleton.1 mem]
    exact .refl _ _
  | cons x rest ih =>
    let best := if newer reads x b then x else b
    have spec : pickNewer reads (some b) x = some best ∧ (best = b ∨ best = x) ∧ NotNewer reads x best ∧
        NotNewer reads b best := by
      cases first : newer reads x b with
      | true =>
        rw [show best = x from if_pos first]
        exact ⟨if_pos first, .inr rfl, .refl _ _, .of_newer first⟩
      | false =>
        rw [show best = b from if_neg (by rw [first]; exact Bool.false_ne_true)]
        exact ⟨if_neg (by rw [first]; exact Bool.false_ne_true), .inl rfl, newer_eq_false.1 first, .refl _ _⟩
    obtain ⟨picked, one, newX, newB⟩ := spec
    obtain ⟨f, result, mem, newest⟩ := ih best
    have kept := newest best List.mem_cons_self
    refine ⟨f, by rw [List.foldl_cons, picked, result], ?_, fun g h => ?_⟩
    · rcases List.mem_cons.1 mem with rfl | mem
      · rcases one with is | is <;> rw [is] <;> simp
      · exact List.mem_cons_of_mem _ (List.mem_cons_of_mem _ mem)
    · rcases List.mem_cons.1 h with rfl | h
      · exact newB.trans kept
      · rcases List.mem_cons.1 h with rfl | h
        · exact newX.trans kept
        · exact newest g (List.mem_cons_of_mem _ h)

/-- The SYSTEM records found of a setting. -/
def systemRecords (found : List Found) (id : Byte) : List Found :=
  found.filter fun f => decide (f.record.kind = .system ∧ f.record.key = [id])

/-- The setting a SYSTEM record gives, where its value is in range (R119). -/
def settingFrom (id : Byte) (f : Found) : Option Setting :=
  if settingValueOk id f.record.value then
    some { id := id, value := f.record.value, sn := f.record.sn, loc := f.loc }
  else none

theorem rebuiltSetting_eq (reads : List SegRead) (found : List Found) (id : Byte) :
    rebuiltSetting reads found id =
      ((systemRecords found id).foldl (pickNewer reads) none).bind (settingFrom id) := by
  have pick : (fun best f =>
      match best with
      | some b => if newer reads f b then some f else some b
      | none => some f) = pickNewer reads := by
    funext best f
    cases best <;> rfl
  rw [← pick]
  unfold rebuiltSetting
  dsimp only
  split
  · rename_i is
    exact (congrArg (fun newest => newest.bind (settingFrom id)) is).symm
  · rename_i is
    exact (congrArg (fun newest => newest.bind (settingFrom id)) is).symm

theorem rebuiltSetting_none {reads : List SegRead} {found : List Found} {id : Byte}
    (own : systemRecords found id = []) : rebuiltSetting reads found id = none := by
  rw [rebuiltSetting_eq, own]
  rfl

/-- A setting is taken from the newest of its records, where the value is in range. -/
theorem rebuiltSetting_newest {reads : List SegRead} {found : List Found} {id : Byte}
    (own : systemRecords found id ≠ []) :
    ∃ f ∈ systemRecords found id, (∀ g ∈ systemRecords found id, NotNewer reads g f) ∧
      (settingValueOk id f.record.value = true → rebuiltSetting reads found id =
        some { id := id, value := f.record.value, sn := f.record.sn, loc := f.loc }) ∧
      (¬ settingValueOk id f.record.value = true → rebuiltSetting reads found id = none) := by
  obtain ⟨b, rest, is⟩ := List.exists_cons_of_ne_nil own
  obtain ⟨f, result, mem, newest⟩ := foldl_pickNewer reads rest b
  have all : (b :: rest).foldl (pickNewer reads) none = some f := result
  rw [rebuiltSetting_eq, is, all]
  exact ⟨f, mem, newest, fun ok => if_pos ok, fun bad => if_neg bad⟩

theorem rebuiltSetting_id {reads : List SegRead} {found : List Found} {id : Byte} {t : Setting}
    (h : rebuiltSetting reads found id = some t) : t.id = id := by
  by_cases own : systemRecords found id = []
  · rw [rebuiltSetting_none own] at h
    cases h
  · obtain ⟨f, -, -, ok, bad⟩ := rebuiltSetting_newest (reads := reads) own
    by_cases value : settingValueOk id f.record.value = true
    · rw [ok value] at h
      cases h
      rfl
    · rw [bad value] at h
      cases h

theorem settingOf_rebuilt (m : Mount) (id : Byte) :
    settingOf m.rebuild.settings id =
      if id ∈ settingIds then rebuiltSetting m.reads m.found id else none :=
  settingOf_filterMap settingIds _ (fun _ _ => rebuiltSetting_id) id

theorem twoBytes_iff (value : Bytes) : value.length = 2 ∧ leNat value ≤ Config.dirSlots ↔
    ∃ l0 l1 : Byte, value = [l0, l1] ∧ l0.toNat + 256 * l1.toNat ≤ 1024 := by
  rw [List.length_eq_two]
  constructor
  · rintro ⟨⟨l0, l1, rfl⟩, le⟩
    exact ⟨l0, l1, rfl, by rwa [leNat_two] at le⟩
  · rintro ⟨l0, l1, rfl, le⟩
    exact ⟨⟨l0, l1, rfl⟩, by rwa [leNat_two]⟩

/-- The value of each setting in its range (R119, R128). -/
theorem settingValueOk_iff {id : Byte} (known : id ∈ settingIds) (value : Bytes) :
    settingValueOk id value = true ↔
      if id = 0x01 then value.length = 1
      else if id = 0x20 then value = [0x01] ∨ value = [0x02]
      else if id = 0x21 then value.length = 16
      else if id = 0x22 then ∃ b : Byte, value = [b] ∧ b.toNat ≤ 3
      else ∃ l0 l1 : Byte, value = [l0, l1] ∧ l0.toNat + 256 * l1.toNat ≤ 1024 := by
  have other : settingIds.contains id = true := List.contains_iff_mem.2 known
  unfold settingValueOk
  rw [other, if_pos (c := true = true) rfl]
  change (if id = 0x01 then _ else if id = 0x20 then _ else if id = 0x21 then _ else if id = 0x22 then _
    else _) = true ↔ _
  split_ifs
  · exact decide_eq_true_iff
  · exact decide_eq_true_iff
  · exact decide_eq_true_iff
  · constructor
    · intro ok
      split at ok
      · rename_i b
        exact ⟨b, rfl, of_decide_eq_true ok⟩
      · cases ok
    · rintro ⟨b, rfl, le⟩
      exact decide_eq_true le
  · exact decide_eq_true_iff.trans (twoBytes_iff value)

/-! ## The counters (R111, R123) -/

theorem rebuild_sn (m : Mount) :
    ((∀ f ∈ m.found, f.record.sn < m.rebuild.sn) ∧ m.scanSn < m.rebuild.sn ∧
      (m.rebuild.sn = m.scanSn + 1 ∨ ∃ f ∈ m.found, m.rebuild.sn = f.record.sn + 1)) := by
  let sns := m.found.map fun f => f.record.sn
  change (∀ f ∈ m.found, f.record.sn < max (greatest sns) m.scanSn + 1) ∧
    m.scanSn < max (greatest sns) m.scanSn + 1 ∧ (max (greatest sns) m.scanSn + 1 = m.scanSn + 1 ∨
      ∃ f ∈ m.found, max (greatest sns) m.scanSn + 1 = f.record.sn + 1)
  refine ⟨fun f mem => ?_, by omega, ?_⟩
  · have : f.record.sn ≤ greatest sns := le_greatest (List.mem_map.2 ⟨f, mem, rfl⟩)
    omega
  · by_cases scanned : greatest sns ≤ m.scanSn
    · exact .inl (by rw [Nat.max_eq_right scanned])
    · obtain ⟨f, mem, is⟩ := List.mem_map.1
        ((greatest_mem sns).resolve_left fun zero => scanned (by rw [zero]; exact Nat.zero_le _))
      exact .inr ⟨f, mem, by rw [Nat.max_eq_left (Nat.le_of_not_le scanned), ← is]⟩

theorem rebuild_stamp (m : Mount) :
    (∀ read ∈ m.reads, ∀ n, read.stamp = some n → n < m.rebuild.stamp) ∧
      (m.rebuild.stamp = 1 ∨ ∃ read ∈ m.reads, ∃ n, read.stamp = some n ∧ m.rebuild.stamp = n + 1) := by
  let stamps := m.reads.filterMap SegRead.stamp
  change (∀ read ∈ m.reads, ∀ n, read.stamp = some n → n < greatest stamps + 1) ∧
    (greatest stamps + 1 = 1 ∨ ∃ read ∈ m.reads, ∃ n, read.stamp = some n ∧ greatest stamps + 1 = n + 1)
  refine ⟨fun read mem n is => ?_, (greatest_mem stamps).imp (by rw [·]) fun mem => ?_⟩
  · exact Nat.lt_succ_of_le (le_greatest (List.mem_filterMap.2 ⟨read, mem, is⟩))
  · obtain ⟨read, mem, is⟩ := List.mem_filterMap.1 mem
    exact ⟨read, mem, _, is, rfl⟩

/-! ## The end of the reads (R114 to R124) -/

/-- The head to open, or the end of mount (R124). -/
theorem nextOpen_spec (r : Mount) (s : State) :
    (headToOpen r = none → nextOpen r s = mountAsk { r with phase := .finished } none s) ∧
      ∀ v, headToOpen r = some v → nextOpen r s =
        mountAsk { r with phase := .openHead v, stamp := r.stamp + 1 }
          (some (.mountOpenedMark v r.stamp)) s := by
  unfold nextOpen
  exact ⟨fun none_ => by rw [none_], fun v chosen => by rw [chosen]⟩

/-- The last scan decides and settles everything read. -/
theorem nextScan_last (m : Mount) (s : State) :
    nextScan m [] s = nextClose m.rebuild (toClose m.rebuild) s := rfl

/-- The last walk, with no region to scan, decides and settles everything read. -/
theorem walkRead_last {s : State} {m : Mount} {seg off : Nat} {bad : List Nat}
    (view : walkView (arraySeg s seg) off bad = .stops .erasedSpace)
    (unscanned : scanRegions
      { m with ends := m.ends ++ [{ seg := seg, off := off, stop := .erasedSpace }] } = []) :
    walkRead m seg [] off bad s = nextScan { m with
      ends := m.ends ++ [{ seg := seg, off := off, stop := .erasedSpace }] } [] s := by
  rw [walkRead, view]
  dsimp only
  rw [if_neg nofun, nextWalk, unscanned]

/-- The state in which mount goes on once everything is settled: the first segment to close, or the first to
erase, or the head to open, or its end (R120 to R124). -/
def GoesOn (r : Mount) (s : State) (is : State → Prop) : Prop :=
  let unknown := indicesOf r.reads fun c => decide (c = .unknown)
  (∀ i more, toClose r = i :: more →
      is (mountAsk { r with phase := .close (i :: more) } (some (.mountFilledMark i)) s)) ∧
    (toClose r = [] → ∀ i more, unknown = i :: more →
      is (mountAsk { r with phase := .reErase (i :: more) } (some (.mountErase i)) s)) ∧
    (toClose r = [] → unknown = [] →
      (headToOpen r = none → is (mountAsk { r with phase := .finished } none s)) ∧
      ∀ v, headToOpen r = some v → is (mountAsk { r with phase := .openHead v, stamp := r.stamp + 1 }
        (some (.mountOpenedMark v r.stamp)) s))

/-- `nextClose` leaves that state. -/
theorem goesOn_nextClose {r : Mount} {s : State} {is : State → Prop}
    (next : is (nextClose r (toClose r) s)) : GoesOn r s is := by
  refine ⟨fun i more closes => ?_, fun closed i more erases => ?_,
    fun closed none_ => ⟨fun head => ?_, fun v chosen => ?_⟩⟩
  · rw [closes] at next
    exact next
  · rw [closed, nextClose, erases] at next
    exact next
  · rw [closed, nextClose, none_, nextErase, (nextOpen_spec r s).1 head] at next
    exact next
  · rw [closed, nextClose, none_, nextErase, (nextOpen_spec r s).2 v chosen] at next
    exact next

/-- Settles O58: the newest standing record of each name, the order of admission, and the lists mount works
off after its last read. -/
theorem mountKeepsTheNewestRecordOfEachName : Obligations.MountKeepsTheNewestRecordOfEachName := by
  refine ⟨fun m => ?_, ⟨straySn, imageSns_straySn, ?_⟩, fun m => ?_⟩
  · obtain ⟨-, mem, covers⟩ := nameRecords_spec m.reads m.found
    refine ⟨fun f found up => ?_, mem, rebuild_dir_of_few m⟩
    obtain ⟨g, named, name, newest⟩ := covers f found up
    exact ⟨g, named, name.1, name.2, newest⟩
  · intro s m bad h mount ends
    refine ⟨fun region phase => ⟨_, scanLeaves_max s region bad m.scanSn, ?_⟩,
      fun seg off phase below erased unscanned => ?_⟩
    · exact goesOn_nextClose (is := fun u => exec (.mountReadDone bad) s = .next u)
        ((exec_scanRead h mount phase bad).trans (congrArg _ (nextScan_last _ s)))
    · refine goesOn_nextClose (is := fun u => exec (.mountReadDone bad) s = .next u)
        ((exec_walkRead h mount phase bad).trans (congrArg _ ?_))
      rw [walkRead_last (walkView_erased (a := arraySeg s seg) below erased bad) unscanned]
      exact nextScan_last _ s
  · intro r names newest inRange ids
    have one := (nameRecords_spec m.reads m.found).1
    obtain ⟨length, mem⟩ := rebuiltDir_spec one
    have setting := settingOf_rebuilt m
    refine ⟨⟨length, by rw [← List.length_map (f := Found.entry)]; rfl, fun e h => ?_,
      fun g named out e h => ?_⟩, fun id unknown => ?_, fun id known => ⟨fun own => ?_, fun own => ?_⟩,
      rebuild_sn m, rebuild_stamp m⟩
    · exact mem_admission.1 (List.mem_of_mem_take ((mem e).1 h))
    · exact not_admittedBefore_iff.1 (rebuiltDir_first one named out h)
    · exact (setting id).trans (if_neg unknown)
    · exact ((setting id).trans (if_pos known)).trans (rebuiltSetting_none own)
    · obtain ⟨f, mine, first, ok, bad⟩ := rebuiltSetting_newest (reads := m.reads) own
      have value := settingValueOk_iff known f.record.value
      have is := (setting id).trans (if_pos known)
      refine ⟨f, ⟨mine, fun g h => ?_⟩, fun fits => is.trans (ok (value.2 fits)),
        fun fails => is.trans (bad fun fits => fails (value.1 fits))⟩
      rcases first g h with sn | ⟨sn, stamp⟩ | ⟨sn, stamp⟩
      · exact .inl sn
      · exact .inr ⟨sn, .inl stamp⟩
      · exact .inr ⟨sn, .inr stamp⟩

end Sys2Proof.Machine
end

section
/-!
PROOFS. The segments mount settles: what each is taken as, and its marks and erases (R111, R120 to R122,
R124): O59.
-/

namespace Sys2Proof.Machine

open Sys2Proof

/-! ## The order of the walks (R112) -/

theorem readAt_of_getElem? {reads : List SegRead} {i : Nat} {read : SegRead} (is : reads[i]? = some read) :
    readAt reads i = read := by
  rw [readAt, List.getD_eq_getElem?_getD, is]
  rfl

theorem stampAt_of_getElem? {reads : List SegRead} {i : Nat} {read : SegRead} (is : reads[i]? = some read) :
    stampAt reads i = read.stamp.getD 0 := by
  rw [stampAt, readAt_of_getElem? is]

theorem mem_indicesOf {reads : List SegRead} {p : SegClass → Bool} {i : Nat} :
    i ∈ indicesOf reads p ↔ ∃ read, reads[i]? = some read ∧ p read.cls = true := by
  rw [indicesOf, List.mem_filter, List.mem_range]
  constructor
  · rintro ⟨lt, of⟩
    have is := List.getElem?_eq_getElem lt
    rw [readAt_of_getElem? is] at of
    exact ⟨_, is, of⟩
  · rintro ⟨read, is, of⟩
    rw [readAt_of_getElem? is]
    exact ⟨(List.getElem?_eq_some_iff.1 is).1, of⟩

theorem insertByStamp_eq (reads : List SegRead) (i : Nat) (sorted : List Nat) :
    insertByStamp reads i sorted = sorted.orderedInsert (fun i j => stampAt reads i < stampAt reads j) i := by
  induction sorted with
  | nil => rfl
  | cons j rest ih => rw [insertByStamp, List.orderedInsert_cons, ih]

/-- The walked segments stand in ascending order of open stamp. -/
theorem walkOrder_spec (reads : List SegRead) :
    ((walkOrder reads).Pairwise fun i j => ¬ stampAt reads j < stampAt reads i) ∧
      ∀ i, i ∈ walkOrder reads ↔ ∃ read, reads[i]? = some read ∧ read.cls.walked = true := by
  have insert : (fun sorted i => insertByStamp reads i sorted) =
      fun (sorted : List Nat) i => sorted.orderedInsert (fun i j => stampAt reads i < stampAt reads j) i :=
    funext fun _ => funext fun _ => insertByStamp_eq reads _ _
  obtain ⟨ordered, perm⟩ := foldl_orderedInsert (r := fun i j => stampAt reads i < stampAt reads j)
    (fun _ _ => Nat.lt_asymm) (fun _ _ _ _ _ => by omega) (indicesOf reads SegClass.walked) (sorted := [])
    List.Pairwise.nil
  rw [← insert, List.append_nil] at perm
  rw [← insert] at ordered
  exact ⟨ordered, fun i => perm.mem_iff.trans mem_indicesOf⟩

/-- The last walked segment has the greatest stamp. -/
theorem stamp_le_last {reads : List SegRead} {i k : Nat} (last : (walkOrder reads).getLast? = some i)
    (mem : k ∈ walkOrder reads) : stampAt reads k ≤ stampAt reads i := by
  obtain ⟨ys, is⟩ := List.getLast?_eq_some_iff.1 last
  have ordered := (walkOrder_spec reads).1
  rw [is] at ordered mem
  rcases List.mem_append.1 mem with mem | mem
  · exact Nat.not_lt.1 ((List.pairwise_append.1 ordered).2.2 k mem i List.mem_cons_self)
  · rw [List.mem_singleton.1 mem]

/-! ## The head and the victim mount keeps (R120) -/

theorem keptHead_last {m : Mount} {i : Nat} (kept : keptHead m = some i) :
    (walkOrder m.reads).getLast? = some i ∧ ∃ e, endOf m.ends i = some e ∧ e.stop ≠ .torn := by
  unfold keptHead at kept
  split at kept
  · rename_i j last
    split at kept
    · rename_i e ends
      split at kept
      · rename_i is
        cases kept
        exact ⟨last, e, ends, is.2⟩
      · cases kept
    · cases kept
  · cases kept

theorem keptHead_of_last {m : Mount} {i : Nat} {e : WalkEnd} (last : (walkOrder m.reads).getLast? = some i)
    (ends : endOf m.ends i = some e) (opened : (readAt m.reads i).cls = .opened) (sound : e.stop ≠ .torn) :
    keptHead m = some i := by
  unfold keptHead
  rw [last]
  dsimp only
  rw [ends]
  exact if_pos ⟨opened, sound⟩

/-- The segment with the greatest stamp of all walked ones is the last walked. -/
theorem walkOrder_last {reads : List SegRead} {i : Nat} (mem : i ∈ walkOrder reads)
    (greatest : ∀ k ∈ walkOrder reads, k ≠ i → stampAt reads k < stampAt reads i) :
    (walkOrder reads).getLast? = some i := by
  cases last : (walkOrder reads).getLast? with
  | none =>
    rw [List.getLast?_eq_none_iff.1 last] at mem
    cases mem
  | some j =>
    have le := stamp_le_last last mem
    by_contra differ
    have := greatest j (List.mem_of_getLast? last) fun same => differ (by rw [same])
    omega

/-- The reclaiming segments in the order of the walks. -/
theorem keptVictim_spec {m : Mount} {i : Nat} (kept : keptVictim m = some i) {k : Nat}
    (mem : k ∈ walkOrder m.reads) (reclaiming : (readAt m.reads k).cls = .reclaiming) :
    stampAt m.reads i ≤ stampAt m.reads k := by
  obtain ⟨rest, is⟩ := List.head?_eq_some_iff.1 kept
  have ordered := (walkOrder_spec m.reads).1.filter fun i => decide ((readAt m.reads i).cls = .reclaiming)
  have mem : k ∈ (walkOrder m.reads).filter fun i => decide ((readAt m.reads i).cls = .reclaiming) :=
    List.mem_filter.2 ⟨mem, decide_eq_true reclaiming⟩
  rw [is] at ordered mem
  rcases List.mem_cons.1 mem with rfl | mem
  · exact Nat.le_refl _
  · exact Nat.not_lt.1 ((List.pairwise_cons.1 ordered).1 k mem)

theorem keptVictim_of_least {m : Mount} {i : Nat} (mem : i ∈ walkOrder m.reads)
    (reclaiming : (readAt m.reads i).cls = .reclaiming)
    (least : ∀ k ∈ walkOrder m.reads, (readAt m.reads k).cls = .reclaiming → k ≠ i →
      stampAt m.reads i < stampAt m.reads k) : keptVictim m = some i := by
  cases kept : keptVictim m with
  | none =>
    have none_ := List.filter_eq_nil_iff.1 (List.head?_eq_none_iff.1 kept) i mem
    exact absurd (decide_eq_true reclaiming) none_
  | some j =>
    have le := keptVictim_spec kept mem reclaiming
    obtain ⟨memJ, is⟩ := List.mem_filter.1 (List.mem_of_head? kept)
    by_contra differ
    have := least j memJ (of_decide_eq_true is) fun same => differ (by rw [same])
    omega

/-! ## The settled table (R120, R121) -/

theorem rebuild_segs (m : Mount) {i : Nat} {read : SegRead} (is : m.reads[i]? = some read) :
    m.rebuild.segs[i]? = some (settledEntry m.rebuild i) := by
  have lt := (List.getElem?_eq_some_iff.1 is).1
  change ((List.range m.reads.length).map _)[i]? = _
  rw [List.getElem?_map, List.getElem?_range lt]
  rfl

theorem rebuild_segs_length (m : Mount) : m.rebuild.segs.length = m.reads.length :=
  (List.length_map _).trans List.length_range

theorem mem_toClose {m : Mount} {i : Nat} {read : SegRead} (is : m.reads[i]? = some read) :
    i ∈ toClose m ↔ read.cls = .opened ∧ keptHead m ≠ some i := by
  rw [toClose, List.mem_filter, mem_indicesOf]
  constructor
  · rintro ⟨⟨_, is', opened⟩, other⟩
    rw [is] at is'
    cases is'
    exact ⟨of_decide_eq_true opened, by simpa using other⟩
  · rintro ⟨opened, other⟩
    exact ⟨⟨read, is, decide_eq_true opened⟩, by simpa using other⟩

/-- Another segment's read, told by its open stamp and its class. -/
def OtherRead (m : Mount) (i : Nat) (p : Nat → SegClass → Prop) : Prop :=
  ∃ k x, k ≠ i ∧ m.reads[k]? = some x ∧ p (x.stamp.getD 0) x.cls

theorem SegClass.walked_iff {c : SegClass} :
    c.walked = true ↔ c = .opened ∨ c = .filled ∨ c = .reclaiming := by
  cases c <;> simp [SegClass.walked]

/-- An OPEN segment is the head mount keeps where its stamp is the greatest and its walk did not end torn. -/
theorem keptHead_of_greatest {m : Mount} {i : Nat} {read : SegRead} {e : WalkEnd}
    (is : m.reads[i]? = some read) (opened : read.cls = .opened) (ends : endOf m.ends i = some e)
    (sound : e.stop ≠ .torn)
    (greatest : ¬ OtherRead m i fun n c => c.walked = true ∧ read.stamp.getD 0 ≤ n) :
    keptHead m = some i := by
  have order := (walkOrder_spec m.reads).2
  refine keptHead_of_last (walkOrder_last ((order i).2 ⟨read, is, by rw [opened]; rfl⟩) ?_) ends
    (by rw [readAt_of_getElem? is]; exact opened) sound
  intro k mem differ
  obtain ⟨x, at_, walked⟩ := (order k).1 mem
  rw [stampAt_of_getElem? at_, stampAt_of_getElem? is]
  exact Nat.not_le.1 fun le => greatest ⟨k, x, differ, at_, walked, le⟩

theorem keptHead_ne {m : Mount} {i : Nat} {read : SegRead} {e : WalkEnd}
    (is : m.reads[i]? = some read) (ends : endOf m.ends i = some e)
    (not : (OtherRead m i fun n c => c.walked = true ∧ read.stamp.getD 0 < n) ∨ e.stop = .torn) :
    keptHead m ≠ some i := by
  intro kept
  obtain ⟨last, e', ends', sound⟩ := keptHead_last kept
  rw [ends] at ends'
  cases ends'
  obtain ⟨k, x, -, at_, walked, lt⟩ := not.resolve_right sound
  have le := stamp_le_last last (((walkOrder_spec m.reads).2 k).2 ⟨x, at_, walked⟩)
  rw [stampAt_of_getElem? at_, stampAt_of_getElem? is] at le
  exact Nat.not_lt.2 le lt

/-- The RECLAIMING segment of the lowest stamp is the victim mount keeps. -/
theorem keptVictim_of_lowest {m : Mount} {i : Nat} {read : SegRead} (is : m.reads[i]? = some read)
    (reclaiming : read.cls = .reclaiming)
    (lowest : ¬ OtherRead m i fun n c => c = .reclaiming ∧ n ≤ read.stamp.getD 0) :
    keptVictim m = some i := by
  have order := (walkOrder_spec m.reads).2
  refine keptVictim_of_least ((order i).2 ⟨read, is, by rw [reclaiming]; rfl⟩)
    (by rw [readAt_of_getElem? is]; exact reclaiming) fun k mem cls differ => ?_
  obtain ⟨x, at_, -⟩ := (order k).1 mem
  rw [readAt_of_getElem? at_] at cls
  rw [stampAt_of_getElem? at_, stampAt_of_getElem? is]
  exact Nat.not_le.1 fun le => lowest ⟨k, x, differ, at_, cls, le⟩

theorem keptVictim_ne {m : Mount} {i : Nat} {read : SegRead} (is : m.reads[i]? = some read)
    (lower : OtherRead m i fun n c => c = .reclaiming ∧ n < read.stamp.getD 0) :
    keptVictim m ≠ some i := by
  intro kept
  obtain ⟨k, x, -, at_, cls, lt⟩ := lower
  have le := keptVictim_spec kept (((walkOrder_spec m.reads).2 k).2 ⟨x, at_, by rw [cls]; rfl⟩)
    (by rw [readAt_of_getElem? at_]; exact cls)
  rw [stampAt_of_getElem? at_, stampAt_of_getElem? is] at le
  exact Nat.not_lt.2 le lt

/-- The entry of a walked segment in this state, by what was read of it (R121). -/
theorem walkedEntry_of_read {r : Mount} {i : Nat} {read : SegRead} (is : r.reads[i]? = some read)
    (state : SegState) (used : Nat) (marked : Bool) :
    walkedEntry r i state used marked =
      { state := state, stamp := read.stamp, eraseCount := read.eraseCount.getD 0, used := used
        live := liveIn r.dir r.settings i, suspect := false, pin := false, reclaimMarked := marked } := by
  rw [walkedEntry, readAt_of_getElem? is]

/-- The entry mount gives a segment, by its class. -/
theorem settledEntry_of_class {r : Mount} {i : Nat} {read : SegRead} (is : r.reads[i]? = some read) :
    (read.cls = .erased → settledEntry r i =
      { SegEntry.none_ with state := .erased, eraseCount := read.eraseCount.getD 0 }) ∧
      (read.cls = .retired → settledEntry r i = SegEntry.none_) ∧
      (read.cls = .filled → settledEntry r i = walkedEntry r i .filled 16320 false) ∧
      (read.cls = .reclaiming →
        (keptVictim r = some i → settledEntry r i = walkedEntry r i .reclaiming 16320 false) ∧
        (keptVictim r ≠ some i → settledEntry r i = walkedEntry r i .filled 16320 true)) ∧
      (read.cls = .opened →
        (keptHead r = some i → ∀ e, endOf r.ends i = some e →
          settledEntry r i = walkedEntry r i .opened (e.off - 64) false) ∧
        (keptHead r ≠ some i → settledEntry r i = walkedEntry r i .filled 16320 false)) := by
  unfold settledEntry
  rw [readAt_of_getElem? is]
  refine ⟨fun cls => ?_, fun cls => ?_, fun cls => ?_, fun cls => ?_, fun cls => ?_⟩
  · rw [cls]
  · rw [cls]
  · rw [cls]
    rfl
  · rw [cls]
    exact ⟨fun kept => if_pos kept, fun other => if_neg other⟩
  · rw [cls]
    refine ⟨fun kept e ends => ?_, fun other => if_neg other⟩
    dsimp only
    rw [if_pos kept, ends]
    rfl

theorem headToOpen_chooses {x : Mount} (head : headOf x.segs = none) (enough : 4 ≤ inUse x.segs)
    (sn : x.sn ≠ 4294967295) (stamp : x.stamp ≠ 4294967295) : headToOpen x = chooseHead x.segs := by
  refine if_neg ?_
  rintro (has | few | spent | spent)
  · exact has head
  · exact Nat.not_lt.2 enough few
  · exact sn spent
  · exact stamp spent

theorem headToOpen_none {x : Mount} (has : headOf x.segs ≠ none ∨ inUse x.segs < 4 ∨ x.sn = 4294967295 ∨
    x.stamp = 4294967295) : headToOpen x = none := if_pos has

/-! ## The marks and erases of mount (R120, R122, R124) -/

theorem exec_mountFilledMarkDone {s : State} {m : Mount} {i : Nat} {more : List Nat}
    (h : Running s (.mountFilledMark i)) (mount : s.mount = some m) (phase : m.phase = .close (i :: more))
    (ok : Bool) :
    exec (.mountFilledMarkDone ok) s = .next (nextClose
      { m with segs := m.segs.modify i fun e => { e with suspect := !ok } } more
      (writeMark i .filled 0 ok s)) := by
  have next : exec (.mountFilledMarkDone ok) s = .next (mountFilledMarkDoneEffect ok s) :=
    congrArg _ (if_pos h.runs)
  rw [next, mountFilledMarkDoneEffect, h.cur, mount]
  dsimp only
  rw [phase]

theorem exec_mountEraseDone {s : State} {m : Mount} {i : Nat} (h : Running s (.mountErase i))
    (mount : s.mount = some m) :
    exec (.mountEraseDone true) s =
        .next (mountAsk m (some (.mountErasedMark i (reEraseCount m i))) (eraseArray i s)) ∧
      exec (.mountEraseDone false) s = .next (mountRetire m i (halfErase i s)) := by
  have next (ok : Bool) : exec (.mountEraseDone ok) s = .next (mountEraseDoneEffect ok s) :=
    congrArg _ (if_pos h.runs)
  constructor
  · rw [next, mountEraseDoneEffect, h.cur, mount]
    rfl
  · rw [next, mountEraseDoneEffect, h.cur, mount]
    rfl

theorem exec_mountErasedMarkDone {s : State} {m : Mount} {i count : Nat}
    (h : Running s (.mountErasedMark i count)) (mount : s.mount = some m) :
    exec (.mountErasedMarkDone true) s =
        .next (nextErase (m.pool i count) m.phase.afterErase (writeMark i .erased count true s)) ∧
      exec (.mountErasedMarkDone false) s =
        .next (mountRetire m i (writeMark i .erased count false s)) := by
  have next (ok : Bool) : exec (.mountErasedMarkDone ok) s = .next (mountErasedMarkDoneEffect ok s) :=
    congrArg _ (if_pos h.runs)
  constructor
  · rw [next, mountErasedMarkDoneEffect, h.cur, mount]
    rfl
  · rw [next, mountErasedMarkDoneEffect, h.cur, mount]
    rfl

theorem exec_mountRetiredMarkDone {s : State} {m : Mount} {i : Nat} (h : Running s (.mountRetiredMark i))
    (mount : s.mount = some m) (ok : Bool) :
    exec (.mountRetiredMarkDone ok) s =
      .next (nextErase m m.phase.afterErase (writeMark i .retired 0 ok s)) := by
  have next : exec (.mountRetiredMarkDone ok) s = .next (mountRetiredMarkDoneEffect ok s) :=
    congrArg _ (if_pos h.runs)
  rw [next, mountRetiredMarkDoneEffect, h.cur, mount]

theorem exec_mountOpenedMarkDone {s : State} {m : Mount} {i stamp : Nat}
    (h : Running s (.mountOpenedMark i stamp)) (mount : s.mount = some m) :
    exec (.mountOpenedMarkDone true) s =
        .next (nextOpen { m with segs := m.segs.modify i fun e => e.openAs stamp }
          (writeMark i .opened stamp true s)) ∧
      exec (.mountOpenedMarkDone false) s =
        .next (mountRetire m i (writeMark i .opened stamp false s)) := by
  have next (ok : Bool) : exec (.mountOpenedMarkDone ok) s = .next (mountOpenedMarkDoneEffect ok s) :=
    congrArg _ (if_pos h.runs)
  constructor
  · rw [next, mountOpenedMarkDoneEffect, h.cur, mount]
    rfl
  · rw [next, mountOpenedMarkDoneEffect, h.cur, mount]
    rfl

/-- With a segment just opened there is a head. -/
theorem headOf_openAs {segs : List SegEntry} {i : Nat} (lt : i < segs.length) (stamp : Nat) :
    headOf (segs.modify i fun e => e.openAs stamp) ≠ none := by
  intro none_
  have mem : (segs[i]).openAs stamp ∈ segs.modify i fun e => e.openAs stamp :=
    List.mem_of_getElem? (i := i) (by rw [List.getElem?_modify, List.getElem?_eq_getElem lt]; simp)
  have not := List.findIdx?_eq_none_iff.1 none_ _ mem
  exact of_decide_eq_false not rfl

/-- What mount takes each segment as, by what it read of it (R120, R121). -/
theorem rebuild_settles (m : Mount) {i : Nat} {read : SegRead} (is : m.reads[i]? = some read) :
    let r := m.rebuild
    let live := liveIn r.dir r.settings i
    let count := read.eraseCount.getD 0
    let walkedAs (state : SegState) (used : Nat) (marked : Bool) : Prop :=
      r.segs[i]? = some
        { state := state, stamp := read.stamp, eraseCount := count, used := used, live := live
          suspect := false, pin := false, reclaimMarked := marked }
    let unused (state : SegState) (count : Nat) : Prop :=
      r.segs[i]? = some
        { state := state, stamp := none, eraseCount := count, used := 0, live := 0
          suspect := false, pin := false, reclaimMarked := false }
    let stamp := read.stamp.getD 0
    (read.cls = .erased → unused .erased count) ∧ (read.cls = .retired → unused .retired 0) ∧
      (read.cls = .filled → walkedAs .filled 16320 false) ∧
      (read.cls = .reclaiming →
        (¬ OtherRead m i (fun n c => c = .reclaiming ∧ n ≤ stamp) → walkedAs .reclaiming 16320 false) ∧
          (OtherRead m i (fun n c => c = .reclaiming ∧ n < stamp) → walkedAs .filled 16320 true)) ∧
      (read.cls = .opened → ∀ e, endOf m.ends i = some e →
        (¬ OtherRead m i (fun n c => c.walked = true ∧ stamp ≤ n) → e.stop ≠ .torn →
          walkedAs .opened (e.off - 64) false ∧ i ∉ toClose r) ∧
          (OtherRead m i (fun n c => c.walked = true ∧ stamp < n) ∨ e.stop = .torn →
            walkedAs .filled 16320 false ∧ i ∈ toClose r)) ∧
      (i ∈ toClose r → read.cls = .opened) := by
  intro r live count walkedAs unused stamp
  have is' : r.reads[i]? = some read := is
  obtain ⟨erased, retired, filled, reclaiming, opened⟩ := settledEntry_of_class is'
  have entry : r.segs[i]? = some (settledEntry r i) := rebuild_segs m is
  have walked {state : SegState} {used : Nat} {marked : Bool}
      (as : settledEntry r i = walkedEntry r i state used marked) : walkedAs state used marked := by
    rw [walkedEntry_of_read is'] at as
    exact entry.trans (congrArg some as)
  refine ⟨fun cls => entry.trans (congrArg some (erased cls)),
    fun cls => entry.trans (congrArg some (retired cls)), fun cls => walked (filled cls),
    fun cls => ⟨fun lowest => ?_, fun lower => ?_⟩,
    fun cls e ends => ⟨fun greatest sound => ?_, fun not => ?_⟩, fun closes => ((mem_toClose is').1 closes).1⟩
  · exact walked ((reclaiming cls).1 (keptVictim_of_lowest is' cls lowest))
  · exact walked ((reclaiming cls).2 (keptVictim_ne is' lower))
  · have kept : keptHead r = some i := keptHead_of_greatest is' cls ends sound greatest
    exact ⟨walked ((opened cls).1 kept e ends), fun closes => ((mem_toClose is').1 closes).2 kept⟩
  · have other : keptHead r ≠ some i := keptHead_ne is' ends not
    exact ⟨walked ((opened cls).2 other), (mem_toClose is').2 ⟨cls, other⟩⟩

/-- Settles O59: the segments in the order of their stamps, and each mark and erase of mount by its
outcome. -/
theorem mountSettlesTheSegments : Obligations.MountSettlesTheSegments := by
  refine ⟨fun m => ⟨rebuild_segs_length m, fun i read is => ?_, fun x =>
    ⟨headToOpen_chooses, headToOpen_none⟩⟩, ?_, ?_, ?_⟩
  · have settled := rebuild_settles m is
    simp only [SegClass.walked_iff] at settled
    exact settled
  · intro s m i j more ok h mount phase
    rw [exec_mountFilledMarkDone h mount phase]
    rfl
  · intro s m i mount
    refine ⟨fun h => ?_, fun h => ?_, fun count j more h phase => ⟨?_, ?_⟩, fun j more ok h phase => ?_⟩
    · rw [(exec_mountEraseDone h mount).1]
      unfold mountAsk
      rw [← mount]
      rfl
    · obtain ⟨keepsMarks, keepsRecord, is⟩ := halfErase_eq i s
      exact ⟨keepsMarks, keepsRecord, by rw [(exec_mountEraseDone h mount).2, is]; rfl⟩
    · rw [(exec_mountErasedMarkDone h mount).1, phase]
      rfl
    · rw [(exec_mountErasedMarkDone h mount).2]
      rfl
    · rw [exec_mountRetiredMarkDone h mount, phase]
      rfl
  · intro s m i stamp h mount lt
    obtain ⟨opened, failed⟩ := exec_mountOpenedMarkDone h mount
    refine ⟨?_, failed⟩
    rw [opened, (nextOpen_spec _ _).1 (headToOpen_none (.inl (headOf_openAs lt stamp)))]
    rfl

end Sys2Proof.Machine
end
